-- ==== Sys2Proof/Word.lean ====
section
/-! DEFINITION. The two widths of the machine: bytes on the bus and in the data registers, words for
addresses and the program counter (R5, R20 to R24, R61). -/

namespace Sys2Proof

/-- A byte: the width of `A`, `X`, `Y`, `S` and of every bus access (R5, R67). -/
abbrev Byte := BitVec 8

/-- A word: the width of `PC` and of every address (R5, R24, R60). -/
abbrev Word := BitVec 16

end Sys2Proof
end

