-- ==== Sys2Proof/Config.lean ====
section
/-! DEFINITION. What an implementation fixes: the architectural addresses (R4, R68), the parameters the
spec lets a model take (R4), and the free values. -/

namespace Sys2Proof

namespace Config

/-- `VEC_NMI`: the low byte's address; the high byte follows at the next address (R4, R68). -/
def vecNmi : Word := 0xFFFA

/-- `VEC_RESET` (R4, R68). -/
def vecReset : Word := 0xFFFC

/-- `VEC_IRQ`, shared by IRQ and `BRK` (R4, R68). -/
def vecIrq : Word := 0xFFFE

/-- `STACK_PAGE` (R4, R23). -/
def stackPage : Word := 0x0100

/-- `OPEN_BUS` (R4, R62): what a read answers at an address the memory does not list.
DESIGN CHOICE (log entry 1), unsafe. -/
def openBus : Byte := 0xFF

/-- A byte the spec leaves open (`draw`, R4). It has no body, so no proof knows its value; the argument is
`State.draws`, so each draw is a fresh one (log entry 6). -/
opaque freeByte : Nat → Byte

/-- A bit the spec leaves open (`draw`, R4); see `freeByte` (log entry 6). -/
opaque freeBit : Nat → Bool

end Config

/-- `RMW_DUMMY` (R4, R190): what the middle cycle of a read-modify-write does. -/
inductive RmwDummy where
  /-- the default: a write of the unmodified byte -/
  | writeOld
  /-- a write of an intermediate value, which is a free value -/
  | writeIntermediate
  /-- a second read of the operand instead of a write -/
  | read
  deriving DecidableEq, Repr

/-- `BCD_INVALID` (R4, R172, R173): decimal `ADC` and `SBC` on an operand with a nibble above 9. -/
inductive BcdInvalid where
  /-- the default: the total functions of R172 and R173 -/
  | algorithm
  /-- result and carry are free values -/
  | draw
  deriving DecidableEq, Repr

/-- The parameters of R4 that change an access or a result and for which the rules spell out every value.
They are carried in `State` and no step changes them, so a statement about every state holds for each of
their values. -/
structure Params where
  rmwDummy : RmwDummy
  bcdInvalid : BcdInvalid
  deriving DecidableEq, Repr

/-- The defaults of R4. -/
def Params.default : Params := { rmwDummy := .writeOld, bcdInvalid := .algorithm }

end Sys2Proof
end

