-- ==== Sys2Proof/Machine/State.lean ====
section
/-! DEFINITION. The state of one core at rest or between two cycles (R20 to R38), the host's side of it as
plain data (memory, the calls it has seen, the acts it is going to perform), and the machine right after
RESET. -/

namespace Sys2Proof.Machine

/-- The six stored flags of `P` (R25). Bits 5 and 4 of the status byte are not state (R26). -/
@[ext]
structure Flags where
  /-- bit 7, negative -/
  n : Bool
  /-- bit 6, overflow -/
  v : Bool
  /-- bit 3, decimal -/
  d : Bool
  /-- bit 2, interrupt disable -/
  i : Bool
  /-- bit 1, zero -/
  z : Bool
  /-- bit 0, carry -/
  c : Bool
  deriving DecidableEq, Repr

/-- `exec_state` (R29). -/
inductive ExecState where
  | running
  | waiting
  | stopped
  deriving DecidableEq, Repr

/-- `committed` (R30): the outcome of the last interrupt sample. -/
inductive Commit where
  | none
  | nmi
  | irq
  deriving DecidableEq, Repr

/-- `ctx`, the data of the resumable instruction context (R35). What remains to be done is an `Action`
(Machine/Action.lean). -/
@[ext]
structure Ctx where
  /-- an action is in progress -/
  active : Bool
  /-- the opcode fetched -/
  opcode : Byte
  /-- 1-based index of the next cycle to perform -/
  cycle : Nat
  /-- effective address -/
  ea : Word
  /-- pointer address or base address -/
  aux : Word
  /-- `page_penalty` -/
  page : Bool
  /-- the data byte read so far -/
  data : Byte
  deriving DecidableEq, Repr

/-- The context when no action is in progress: after `init`, after RESET and at every boundary (R35 "discarded at instruction
completion"). The spec gives `active = 0` (R37, R38); that every other field holds 0 is the model's choice (log entry 11). -/
def Ctx.idle : Ctx :=
  { active := false, opcode := 0, cycle := 0, ea := 0, aux := 0, page := false, data := 0 }

/-- Which of the three hooks the host has installed (R36, R410). -/
structure Hooks where
  brk : Bool
  stp : Bool
  eoi : Bool
  deriving DecidableEq, Repr

/-- A call the core makes of the host: a bus access (R61, R64) or a hook (R410). -/
inductive HostCall where
  | read (a : Word)
  | write (a : Word) (v : Byte)
  | brkHook (sig : Byte)
  | stpHook
  | eoiHook
  deriving DecidableEq, Repr

/-- When a scripted act of the host happens (R404): inside the bus access of the cycle that brings
`cycle_count` to `k` (and in a hook called straight after it), or in the end-of-instruction hook that sees
`instr_count = k`. -/
inductive Moment where
  | cycle (k : Nat)
  | endOfInstruction (k : Nat)
  deriving DecidableEq, Repr

/-- What a host may do from a callback (R404, R63, R410). -/
inductive HostAct where
  | assertNmi
  | assertIrq
  | cancelIrq
  | reset
  | requestBreak
  | requestStall (n : Nat)
  | setOverflowFlag
  /-- the host, a device or another bus master changes a byte of memory (R63, R67) -/
  | poke (a : Word) (v : Byte)
  /-- the host answers this cycle's read with `v`, whatever memory holds (R63, R64) -/
  | answer (v : Byte)
  /-- the hook called at this cycle returns true (R410) -/
  | suppress
  deriving DecidableEq, Repr

/-- The host's memory behind the bus port (R60, R61): strictly rising addresses, no entry equal to
`Config.openBus`, which is what an unlisted address reads as (`Memory.wf`). -/
abbrev Memory := List Host.Cell

/-- One core and the host's side of its bus. -/
@[ext]
structure State where
  /-- accumulator (R20) -/
  a : Byte
  /-- index register X (R21) -/
  x : Byte
  /-- index register Y (R22) -/
  y : Byte
  /-- stack pointer `S` (R23) -/
  sp : Byte
  /-- program counter (R24) -/
  pc : Word
  /-- status flags (R25) -/
  p : Flags
  /-- execution state (R29) -/
  execState : ExecState
  /-- a RESET was requested and not yet serviced (R30) -/
  pendReset : Bool
  /-- an NMI edge was captured and not yet serviced (R30) -/
  pendNmi : Bool
  /-- level of the IRQ request (R30) -/
  irqLine : Bool
  /-- outcome of the last sample (R30) -/
  committed : Commit
  /-- total cycles executed (R32) -/
  cycleCount : Nat
  /-- total instructions executed (R32) -/
  instrCount : Nat
  /-- stall budget (R33) -/
  stall : Nat
  /-- break request (R34) -/
  breakReq : Bool
  /-- data of the resumable context (R35) -/
  ctx : Ctx
  /-- installed hooks, configuration (R36) -/
  hooks : Hooks
  /-- parameters of R4, configuration -/
  params : Params
  /-- the host's memory (R60, R61) -/
  mem : Memory
  /-- the calls the host has seen, newest first (R64) -/
  trace : List HostCall
  /-- the host's acts during cycles: the oracle of R63 and R404. No step changes it. -/
  script : List (Moment × HostAct)
  /-- MODEL's own: how many free values have been drawn (log entry 6) -/
  draws : Nat
  /-- MODEL's own: a RESET sequence has run since `init` (R371, log entry 9) -/
  resetSeen : Bool
  deriving DecidableEq, Repr

/-- Why a step stops with a fault. There is no constructor: the core has no error state and no instruction
or access can fault (R62, R320; 93_implementation_defined.md "Nothing in this machine is treated as `fault`
or `stuck`"). -/
inductive Fault : Type
  deriving DecidableEq, Repr

/-- Why a step or a host call is refused. -/
inductive Refusal where
  /-- an arm of `exec` that has no meaning yet; no arm raises it. Safe. -/
  | notModelled (mnemonic : String)
  /-- `step` before any RESET (R371, U8: "outside the spec"). Safe. -/
  | runBeforeReset
  /-- a register setter used while an action is in progress (R408, U2). Safe. -/
  | setterMidInstruction
  /-- the bytes at the program counter do not decode; `step` fetches three bytes, which always decode, so no
  step raises it. Safe. -/
  | undecodable
  deriving DecidableEq, Repr

/-- What an instruction or a step answers with. -/
abbrev Result := Host.Outcome State Fault Refusal

/-- The host's creation of a core, `init` (R371), with every unspecified register and flag at zero.
DESIGN CHOICE (log entry 2), unsafe: R38 leaves them open. -/
def State.powerOn : State :=
  { a := 0, x := 0, y := 0, sp := 0, pc := 0
    p := { n := false, v := false, d := false, i := false, z := false, c := false }
    execState := .running, pendReset := false, pendNmi := false, irqLine := false, committed := .none
    cycleCount := 0, instrCount := 0, stall := 0, breakReq := false, ctx := Ctx.idle
    hooks := { brk := false, stp := false, eoi := false }, params := Params.default
    mem := [], trace := [], script := [], draws := 0, resetSeen := false }

/-- The machine right after the RESET sequence that follows `State.powerOn` (R38, R340): `S` is three below
its power-on value, `PC` the vector read from empty memory, `I = 1`, `D = 0`, seven cycles and one
instruction counted. -/
def State.reset : State :=
  { State.powerOn with
    sp := 0xFD, pc := 0xFFFF
    p := { n := false, v := false, d := false, i := true, z := false, c := false }
    cycleCount := 7, instrCount := 1, resetSeen := true
    trace := [.read 0xFFFD, .read 0xFFFC, .read 0x01FE, .read 0x01FF, .read 0x0100, .read 0x0000, .read 0x0000] }

end Sys2Proof.Machine
end

