-- ==== Sys2Proof/Machine/Memory.lean ====
section
/-! DEFINITION. The host's memory as a canonical list of bytes (R60, R61, R76). -/

namespace Sys2Proof.Machine

/-- The byte at an address; an unlisted address reads as open bus (R62). -/
def Memory.read : Memory → Nat → Byte
  | [], _ => Config.openBus
  | (k, v) :: rest, a => if k = a then v else Memory.read rest a

/-- Store a byte and keep the list canonical: a byte equal to open bus is not listed. -/
def Memory.write : Memory → Nat → Byte → Memory
  | [], a, v => if v = Config.openBus then [] else [(a, v)]
  | (k, w) :: rest, a, v =>
    if a < k then
      if v = Config.openBus then (k, w) :: rest else (a, v) :: (k, w) :: rest
    else if a = k then
      if v = Config.openBus then rest else (a, v) :: rest
    else (k, w) :: Memory.write rest a v

/-- Every listed address is above `lo`, rising strictly, below 65536, with no open-bus byte. -/
def Memory.wfAbove : Option Nat → Memory → Bool
  | _, [] => true
  | lo, (k, v) :: rest =>
    (match lo with | some b => decide (b < k) | none => true) && decide (k < 65536) &&
      decide (v ≠ Config.openBus) && Memory.wfAbove (some k) rest

/-- The canonical form of memory. -/
def Memory.wf (m : Memory) : Bool := Memory.wfAbove none m

end Sys2Proof.Machine
end

