-- ==== Sys2Proof/Machine/Bits.lean ====
section
/-! DEFINITION. Bit slices, extension and byte order (R5, R65, R92). -/

namespace Sys2Proof.Machine

/-- `hi8(w)` (R5). -/
def hi8 (w : Word) : Byte := w.extractLsb' 8 8

/-- `lo8(w)` (R5). -/
def lo8 (w : Word) : Byte := w.extractLsb' 0 8

/-- `{h, l}` (R5). A 16-bit quantity in memory has `l` at the lower address (R65). -/
def word (h l : Byte) : Word := h ++ l

/-- A zero-page address: `$00dd` (R92). -/
def zext (b : Byte) : Word := b.setWidth 16

/-- A branch offset: `sext_8` (R5, R92). -/
def sext (b : Byte) : Word := b.signExtend 16

end Sys2Proof.Machine
end

