-- ==== Sys2Proof/Machine/Registers.lean ====
section
/-! DEFINITION. Reading and writing the registers, the status byte and the controller state. -/

namespace Sys2Proof.Machine

namespace State

def setA (s : State) (v : Byte) : State := { s with a := v }
def setX (s : State) (v : Byte) : State := { s with x := v }
def setY (s : State) (v : Byte) : State := { s with y := v }
def setSp (s : State) (v : Byte) : State := { s with sp := v }
def setPc (s : State) (w : Word) : State := { s with pc := w }
def setP (s : State) (p : Flags) : State := { s with p := p }
def setExec (s : State) (e : ExecState) : State := { s with execState := e }
def setCommitted (s : State) (c : Commit) : State := { s with committed := c }
def setCtx (s : State) (c : Ctx) : State := { s with ctx := c }
def setMem (s : State) (m : Memory) : State := { s with mem := m }
def setStall (s : State) (n : Nat) : State := { s with stall := n }
/-- The call is the newest entry of what the host has seen (R64). -/
def call (s : State) (c : HostCall) : State := { s with trace := c :: s.trace }
/-- One more free value has been drawn (log entry 6). -/
def drawn (s : State) : State := { s with draws := s.draws + 1 }

/-- The stack address `$0100 OR S` (R23). -/
def stackAddr (s : State) : Word := Config.stackPage ||| zext s.sp

end State

/-- `StatusByte(b)` (R27): `N V 1 B D I Z C` from bit 7 to bit 0. -/
def Flags.statusByte (p : Flags) (b : Bool) : Byte :=
  BitVec.ofBool p.n ++ BitVec.ofBool p.v ++ (1#1 : BitVec 1) ++ BitVec.ofBool b ++
    BitVec.ofBool p.d ++ BitVec.ofBool p.i ++ BitVec.ofBool p.z ++ BitVec.ofBool p.c

/-- The flags `SetStatus(v)` leaves (R28); bits 5 and 4 are ignored. -/
def Flags.ofByte (v : Byte) : Flags :=
  { n := v.getLsbD 7, v := v.getLsbD 6, d := v.getLsbD 3
    i := v.getLsbD 2, z := v.getLsbD 1, c := v.getLsbD 0 }

/-- `SetStatus(v)` (R28). -/
def State.setStatus (s : State) (v : Byte) : State := s.setP (Flags.ofByte v)

/-- `irq_mask` (R31): true when an IRQ is visible. It is a function of `P.I` and is not stored. -/
def State.irqMask (s : State) : Bool := !s.p.i

/-- What the interrupt sample commits (R331). -/
def State.sampled (s : State) : Commit :=
  if s.pendNmi then .nmi
  else if s.irqLine && s.irqMask then .irq
  else s.committed

/-- The interrupt sample (R331). -/
def State.sample (s : State) : State := s.setCommitted s.sampled

/-- A boundary action begins: the context is allocated (R35, R401). -/
def State.begin (s : State) (opcode : Byte) : State :=
  s.setCtx { Ctx.idle with active := true, opcode := opcode, cycle := 1 }

/-- A boundary action ends: the context is discarded (R35). -/
def State.discard (s : State) : State := s.setCtx Ctx.idle

/-- The resolver's outputs are kept in the context (R35, R120). -/
def State.latchEa (s : State) (ea : Word) (page : Bool) : State :=
  s.setCtx { s.ctx with ea := ea, page := page }

/-- The pointer address or base address is kept in the context (R35). -/
def State.latchAux (s : State) (w : Word) : State := s.setCtx { s.ctx with aux := w }

/-- The data byte read is kept in the context (R35). -/
def State.latchData (s : State) (v : Byte) : State := s.setCtx { s.ctx with data := v }

end Sys2Proof.Machine
end

