-- ==== Sys2Proof/Machine/HostEvents.lean ====
section
/-! DEFINITION. The host interface other than the run calls (R404, R408, R409, R413, R415): the events a
host makes at a boundary or from a callback, the scripted acts, and the debug port. -/

namespace Sys2Proof.Machine

namespace State

/-- Host `reset` (R322): only requests the RESET sequence. -/
def requestReset (s : State) : State := { s with pendReset := true }
/-- Host `assert_nmi` (R323). -/
def assertNmi (s : State) : State := { s with pendNmi := true }
/-- Host `assert_irq` (R324). -/
def assertIrq (s : State) : State := { s with irqLine := true }
/-- Host `cancel_irq` (R324). -/
def cancelIrq (s : State) : State := { s with irqLine := false }
/-- Host `request_break` (R405). -/
def requestBreak (s : State) : State := { s with breakReq := true }
/-- Host `request_stall(n)` (R33, R402). -/
def requestStall (s : State) (n : Nat) : State := s.setStall (s.stall + n)
/-- Host `set_overflow_flag`, the S/O pin (R409). -/
def setOverflowFlag (s : State) : State := s.setP { s.p with v := true }

/-- Host `init` (R371): the controller state is set, no bus access is made, registers, flags and memory stay
as they are, since R38 gives them no value. The record of calls starts afresh with the counters. -/
def init (s : State) : State :=
  { s with
    execState := .running, pendReset := false, pendNmi := false, irqLine := false, committed := .none
    cycleCount := 0, instrCount := 0, stall := 0, breakReq := false, ctx := Ctx.idle
    trace := [], resetSeen := false }

/-- `is_waiting` (R29, R415). -/
def isWaiting (s : State) : Bool := s.execState == .waiting
/-- `is_stopped` (R29, R415). -/
def isStopped (s : State) : Bool := s.execState == .stopped

/-- Host `get_a` (R408). -/
def getA (s : State) : Byte := s.a
/-- Host `get_x` (R408). -/
def getX (s : State) : Byte := s.x
/-- Host `get_y` (R408). -/
def getY (s : State) : Byte := s.y
/-- Host `get_s` (R408). -/
def getS (s : State) : Byte := s.sp
/-- Host `get_pc` (R408). -/
def getPc (s : State) : Word := s.pc
/-- Host `get_status` (R27, R408): `B` reads as 1. -/
def getStatus (s : State) : Byte := s.p.statusByte true

/-- A register setter of the debug port (R408): permitted only when no action is in progress. -/
def hostSet (s : State) (set : State → State) : Result :=
  if s.ctx.active then .refused .setterMidInstruction else .next (set s)

/-- Host `set_a` (R408). -/
def hostSetA (s : State) (v : Byte) : Result := s.hostSet (·.setA v)
/-- Host `set_x` (R408). -/
def hostSetX (s : State) (v : Byte) : Result := s.hostSet (·.setX v)
/-- Host `set_y` (R408). -/
def hostSetY (s : State) (v : Byte) : Result := s.hostSet (·.setY v)
/-- Host `set_s` (R408). -/
def hostSetS (s : State) (v : Byte) : Result := s.hostSet (·.setSp v)
/-- Host `set_pc` (R408). -/
def hostSetPc (s : State) (w : Word) : Result := s.hostSet (·.setPc w)
/-- Host `set_status` (R28, R408). -/
def hostSetStatus (s : State) (v : Byte) : Result := s.hostSet (·.setStatus v)

end State

/-- The effect of one scripted act on the state (R404, R63). `answer` and `suppress` are answers to a call
and change nothing by themselves. -/
def HostAct.apply (s : State) : HostAct → State
  | .assertNmi => s.assertNmi
  | .assertIrq => s.assertIrq
  | .cancelIrq => s.cancelIrq
  | .reset => s.requestReset
  | .requestBreak => s.requestBreak
  | .requestStall n => s.requestStall n
  | .setOverflowFlag => s.setOverflowFlag
  | .poke a v => s.setMem (s.mem.write a.toNat v)
  | .answer _ => s
  | .suppress => s

/-- The acts scripted for a moment, in order. -/
def State.actsAt (s : State) (m : Moment) : List HostAct :=
  (s.script.filter (fun e => e.1 == m)).map Prod.snd

/-- The host performs acts in order; each takes effect at once (R404, D21). -/
def State.runActs (s : State) (acts : List HostAct) : State := acts.foldl HostAct.apply s

/-- The byte an act list answers a read with, if any. -/
def answerIn : List HostAct → Option Byte
  | [] => none
  | .answer v :: _ => some v
  | _ :: rest => answerIn rest

/-- What the host answers the read of the next cycle with, when memory has `m` there (R63). -/
def State.hostAnswer (s : State) (m : Byte) : Byte :=
  (answerIn (s.actsAt (.cycle (s.cycleCount + 1)))).getD m

/-- The answer of a hook called straight after the cycle just performed (R410): default false. -/
def State.hookAnswer (s : State) : Bool :=
  (s.actsAt (.cycle s.cycleCount)).contains .suppress

end Sys2Proof.Machine
end

