-- ==== Sys2Proof/Machine/Action.lean ====
section
/-! DEFINITION. One cycle is one bus access (R78): performing it, and the boundary action as the sequence of
cycles still to be performed (R401). -/

namespace Sys2Proof.Machine

/-- The bus access of one cycle (R7). -/
inductive BusOp where
  /-- `MemRead(a, 1)`, or `Idle(a)` when the answer is dropped -/
  | read (a : Word)
  /-- `Fetch()` of a byte the decoder has seen: a read of `PC` that advances it. The byte used is the
  decoder's, unless the host answers this very cycle otherwise; `Action.refetch` renews it after what the
  host does between two cycles (log entry 4). -/
  | fetch (seen : Byte)
  /-- `Pull()` (R77): `S` is incremented, then `$0100 OR S` is read, both in this cycle (log entry 19) -/
  | pull
  /-- `MemWrite(a, 1, v)` -/
  | write (a : Word) (v : Byte)
  /-- `MemWrite(a, 1, StatusByte(b))`, the flags being those of this cycle -/
  | writeStatus (a : Word) (b : Bool)
  deriving DecidableEq, Repr

/-- One access is recorded and one cycle counted (R32, R35, R78). -/
def State.tally (s : State) (c : HostCall) : State :=
  { s.call c with cycleCount := s.cycleCount + 1, ctx := { s.ctx with cycle := s.ctx.cycle + 1 } }

/-- The host's side of an access: it is tallied, and the acts scripted for this cycle happen inside it, before
anything sampled at its end (R404, D3). -/
def State.access (s : State) (c : HostCall) : State :=
  let t := s.tally c
  t.runActs (t.actsAt (.cycle t.cycleCount))

/-- `MemRead(a, 1)` (R7): the byte the host answers, and the state after. -/
def State.busRead (s : State) (a : Word) : Byte × State :=
  (s.hostAnswer (s.mem.read a.toNat), s.access (.read a))

/-- `MemWrite(a, 1, v)` (R7). -/
def State.busWrite (s : State) (a : Word) (v : Byte) : State :=
  (s.setMem (s.mem.write a.toNat v)).access (.write a v)

/-- `Fetch()` (R7). -/
def State.busFetch (s : State) (seen : Byte) : Byte × State :=
  let t := s.access (.read s.pc)
  (s.hostAnswer seen, t.setPc (t.pc + 1))

/-- `Pull()` (R77): increment `S`, then read `$0100 OR S`. -/
def State.busPull (s : State) : Byte × State :=
  let t := s.setSp (s.sp + 1)
  t.busRead t.stackAddr

/-- One cycle: the byte answered (0 for a write) and the state after. -/
def perform (op : BusOp) (s : State) : Byte × State :=
  match op with
  | .read a => s.busRead a
  | .fetch seen => s.busFetch seen
  | .pull => s.busPull
  | .write a v => (0, s.busWrite a v)
  | .writeStatus a b => (0, s.busWrite a (s.p.statusByte b))

/-- A boundary action (R401) from some point on: complete, or one cycle to perform and then the rest, which
depends on the byte answered. This is the resumable instruction context (R35) as a value; its data fields
are in the state's `ctx`. -/
inductive Action where
  | done (s : State)
  | cycle (op : BusOp) (s : State) (k : Byte → State → Action)

/-- Perform every remaining cycle. -/
def Action.run : Action → State
  | .done s => s
  | .cycle op s k => (k (perform op s).1 (perform op s).2).run

/-- Perform one cycle. -/
def Action.advance : Action → Action
  | .done s => .done s
  | .cycle op s k => k (perform op s).1 (perform op s).2

/-- The state as the cycles performed so far have left it (R408). -/
def Action.state : Action → State
  | .done s => s
  | .cycle _ s _ => s

/-- Whether cycles remain (`ctx.active`, R35). -/
def Action.active : Action → Bool
  | .done _ => false
  | .cycle _ _ _ => true

/-- Apply a function to the state as the cycles performed so far have left it. -/
def Action.mapState (f : State → State) : Action → Action
  | .done s => .done (f s)
  | .cycle op s k => .cycle op (f s) k

/-- Each operand byte still to be fetched is the one memory holds in the cycle that fetches it (R74). The cycles of an
action just begun already fetch those bytes (log entry 4). -/
def Action.refetch : Action → Action
  | .done s => .done s
  | .cycle (.fetch _) s k => .cycle (.fetch (s.mem.read s.pc.toNat)) s fun v t => (k v t).refetch
  | .cycle op s k => .cycle op s fun v t => (k v t).refetch

/-- What the host does between two cycles (R404), a change of memory included (R63): later fetches see it, as later reads
do (R74). -/
def Action.onState (f : State → State) (a : Action) : Action := (a.mapState f).refetch

/-- The whole boundary action as one step. -/
def complete (a : Action) : Result := .next a.run

end Sys2Proof.Machine
end

