-- ==== Sys2Proof/Machine/Ops.lean ====
section
/-! DEFINITION. The shared operations: how an instruction starts and ends, the sample, the stack, taking an
interrupt and returning from one, RESET, and the one-cycle boundary actions. -/

namespace Sys2Proof.Machine

/-- The first cycle of an instruction: `Fetch()` of its opcode (R100). -/
def start (opcode : Byte) (s : State) (k : State → Action) : Action :=
  .cycle (.fetch opcode) (s.begin opcode) fun _ s => k s

/-- The last cycle of an instruction of two or more: the sample falls at the end of the cycle before it
(R331). -/
def last (op : BusOp) (s : State) (k : Byte → State → Action) : Action :=
  .cycle op s.sample k

/-- `Idle(a)` (R7). -/
def idle (a : Word) (s : State) (k : State → Action) : Action :=
  .cycle (.read a) s fun _ s => k s

/-- The end-of-instruction hook, with the acts the host makes from it (R410, R404). -/
def State.eoiHook (s : State) : State :=
  if s.hooks.eoi then
    (s.call .eoiHook).runActs (s.actsAt (.endOfInstruction s.instrCount))
  else s

/-- The context is discarded and the instruction counted (R411). -/
def State.retire (s : State) : State := { s.discard with instrCount := s.instrCount + 1 }

/-- The end-of-instruction point (R411): context discarded, instruction counted, hook called. -/
def State.endOfInstruction (s : State) : State := s.retire.eoiHook

/-- The action is complete and reaches the end-of-instruction point (R411). -/
def finish (s : State) : Action := .done s.endOfInstruction

/-- `Push` (R77) of what `op` writes: store at `$0100 OR S`, then decrement `S`. -/
def pushOp (op : Word → BusOp) (s : State) (k : State → Action) : Action :=
  .cycle (op s.stackAddr) s fun _ s => k (s.setSp (s.sp - 1))

/-- `Push(v)` (R77). -/
def push (v : Byte) (s : State) (k : State → Action) : Action := pushOp (.write · v) s k

/-- `Push(StatusByte(b))` (R27, R77). -/
def pushStatus (b : Bool) (s : State) (k : State → Action) : Action := pushOp (.writeStatus · b) s k

/-- `Pull()` (R77), one cycle: between cycles `S` shows the pulls made so far (R408). -/
def pull (s : State) (k : Byte → State → Action) : Action := .cycle .pull s k

/-- The path `BRK` and the hardware interrupts share (R266, R335): push `PC` high, low and the status byte,
load `PC` from the vector, set `I` and clear `D`. `brk` is the pushed `B`; `BRK` samples before its last
cycle (R266, R331), an entry does not (R338). -/
def takeInterrupt (brk : Bool) (vec : Word) (s : State) : Action :=
  push (hi8 s.pc) s fun s =>
  push (lo8 s.pc) s fun s =>
  pushStatus brk s fun s =>
  .cycle (.read vec) s fun tl s =>
  .cycle (.read (vec + 1)) (if brk then s.sample else s) fun th s =>
  finish ((s.setPc (word th tl)).setP { s.p with i := true, d := false })

/-- `RTI` after its opcode fetch (R265): `P` is restored on cycle 4, so the sample sees the restored `I`. -/
def returnFromInterrupt (s : State) : Action :=
  idle s.pc s fun s =>
  idle s.stackAddr s fun s =>
  pull s fun v s =>
  pull (s.setStatus v) fun pl s =>
  pull s.sample fun ph s =>
  finish (s.setPc (word ph pl))

/-- The hardware interrupts that are entered from a commit (R335). -/
inductive Entry where
  | nmi
  | irq
  deriving DecidableEq, Repr

/-- The vector of an entry (R321, R335). -/
def Entry.vector : Entry → Word
  | .nmi => Config.vecNmi
  | .irq => Config.vecIrq

/-- What is cleared when an entry begins (R335): the commit, and for an NMI its pending bit. -/
def Entry.acknowledge (e : Entry) (s : State) : State :=
  match e with
  | .nmi => { s with committed := .none, pendNmi := false }
  | .irq => { s with committed := .none }

/-- `Enter(kind)` (R335). -/
def enter (e : Entry) (s : State) : Action :=
  let s := (e.acknowledge s).begin 0
  idle s.pc s fun s =>
  idle s.pc s fun s =>
  takeInterrupt false e.vector s

/-- What RESET clears and sets before its first cycle (R340). -/
def State.resetLatch (s : State) : State :=
  { s with
    pendReset := false, pendNmi := false, irqLine := false, committed := .none
    execState := .running, resetSeen := true }

/-- One of RESET's three dummy stack reads, `S` going down after it (R340). -/
def idleStack (s : State) (k : State → Action) : Action :=
  idle s.stackAddr s fun s => k (s.setSp (s.sp - 1))

/-- The RESET sequence (R340). No bus write occurs and nothing is pushed. -/
def resetSequence (s : State) : Action :=
  let s := s.resetLatch.begin 0
  idle s.pc s fun s =>
  idle s.pc s fun s =>
  idleStack s fun s =>
  idleStack s fun s =>
  idleStack s fun s =>
  .cycle (.read Config.vecReset) s fun tl s =>
  .cycle (.read (Config.vecReset + 1)) s fun th s =>
  finish ((s.setPc (word th tl)).setP { s.p with i := true, d := false })

/-- One stall cycle (R402). -/
def stallCycle (s : State) : Action :=
  idle s.pc (s.begin 0) fun s => .done ((s.setStall (s.stall - 1)).discard)

/-- One stopped cycle (R346). -/
def stoppedCycle (s : State) : Action :=
  idle s.pc (s.begin 0) fun s => .done s.discard

/-- Something ends the wait, masked or not (R345). -/
def State.wakes (s : State) : Bool := s.pendReset || s.pendNmi || s.irqLine

/-- One waiting cycle (R345). -/
def waitingCycle (s : State) : Action :=
  idle s.pc (s.begin 0) fun s =>
  .done (if s.wakes then ((s.setExec .running).sample).discard else s.discard)

end Sys2Proof.Machine
end

