-- ==== Sys2Proof/Machine/Flags.lean ====
section
/-! DEFINITION. What the instructions compute and which flags they set: loads, arithmetic, logic, compares,
shifts, increments and bit operations (R150 to R205). -/

namespace Sys2Proof.Machine

/-- `SetNZ(v)` (R6) on flags. -/
def Flags.setNZ (p : Flags) (v : Byte) : Flags := { p with n := v.msb, z := v == 0 }

/-- `SetNZ(v)` (R6). -/
def State.setNZ (s : State) (v : Byte) : State := s.setP (s.p.setNZ v)

/-- `P.C <- c`. -/
def State.setC (s : State) (c : Bool) : State := s.setP { s.p with c := c }

/-- `P.Z <- z`. -/
def State.setZ (s : State) (z : Bool) : State := s.setP { s.p with z := z }

/-- `P.I <- i`; the IRQ mask follows, being a function of `I` (R31). -/
def State.setI (s : State) (i : Bool) : State := s.setP { s.p with i := i }

/-- `P.D <- d`. -/
def State.setD (s : State) (d : Bool) : State := s.setP { s.p with d := d }

/-- `P.V <- v`. -/
def State.setV (s : State) (v : Bool) : State := s.setP { s.p with v := v }

/-- `A <- v; SetNZ(v)`. -/
def State.loadA (s : State) (v : Byte) : State := (s.setA v).setNZ v

/-- `X <- v; SetNZ(v)`. -/
def State.loadX (s : State) (v : Byte) : State := (s.setX v).setNZ v

/-- `Y <- v; SetNZ(v)`. -/
def State.loadY (s : State) (v : Byte) : State := (s.setY v).setNZ v

/-- The result of `AddBin` (R171). -/
structure Sum where
  r : Byte
  cout : Bool
  v : Bool
  deriving DecidableEq, Repr

/-- `AddBin(a, b, c)` (R171). -/
def addBin (a b : Byte) (c : Bool) : Sum :=
  let sum := a.toNat + b.toNat + c.toNat
  let r := BitVec.ofNat 8 sum
  { r := r, cout := decide (sum > 0xFF), v := ((a ^^^ r) &&& (b ^^^ r)).msb }

/-- The low digit of `AddDec` with its half carry (R172). -/
def addDecLow (a b : Byte) (c : Bool) : Nat :=
  let al := a.toNat % 16 + b.toNat % 16 + c.toNat
  if al ≥ 0x0A then (al + 0x06) % 16 + 0x10 else al

/-- The sum `t` of `AddDec` before it is cut to a byte (R172). -/
def addDecSum (a b : Byte) (c : Bool) : Nat :=
  let t := a.toNat / 16 * 16 + b.toNat / 16 * 16 + addDecLow a b c
  if t ≥ 0xA0 then t + 0x60 else t

/-- `AddDec(a, b, c)` (R172): result and carry. -/
def addDec (a b : Byte) (c : Bool) : Byte × Bool :=
  (BitVec.ofNat 8 (addDecSum a b c), decide (addDecSum a b c ≥ 0x100))

/-- `SubDec(a, b, c)` (R173). -/
def subDec (a b : Byte) (c : Bool) : Byte :=
  let al : Int := (a.toNat % 16 : Nat) - (b.toNat % 16 : Nat) + c.toNat - 1
  let t : Int := a.toNat - b.toNat + c.toNat - 1
  let t := if t < 0 then t - 0x60 else t
  let t := if al < 0 then t - 0x06 else t
  BitVec.ofInt 8 t

/-- Both nibbles are decimal digits. -/
def isBcd (a : Byte) : Bool := decide (a.toNat % 16 ≤ 9) && decide (a.toNat / 16 ≤ 9)

/-- A decimal operation's result and carry are free values: the parameter says so and an operand is not
valid BCD (R172, R173, D8). -/
def State.bcdOpen (s : State) (m : Byte) : Bool :=
  s.params.bcdInvalid == .draw && !(isBcd s.a && isBcd m)

/-- `A` and `C` after a decimal operation whose result and carry are `r` and `c`; N and Z describe `r`
(R174, R175). -/
def State.setDecimal (s : State) (r : Byte) (c v : Bool) : State :=
  (((s.setA r).setC c).setV v).setNZ r

/-- `ADC` (R174): V is the binary one in either mode. -/
def adc (m : Byte) (s : State) : State :=
  let b := addBin s.a m s.p.c
  if s.p.d then
    if s.bcdOpen m then s.drawn.setDecimal (Config.freeByte s.draws) (Config.freeBit s.draws) b.v
    else s.setDecimal (addDec s.a m s.p.c).1 (addDec s.a m s.p.c).2 b.v
  else (((s.setA b.r).setC b.cout).setV b.v).setNZ b.r

/-- `SBC` (R175): V is the binary one in either mode, and so is C. -/
def sbc (m : Byte) (s : State) : State :=
  let b := addBin s.a (~~~m) s.p.c
  if s.p.d then
    if s.bcdOpen m then s.drawn.setDecimal (Config.freeByte s.draws) (Config.freeBit s.draws) b.v
    else s.setDecimal (subDec s.a m s.p.c) b.cout b.v
  else (((s.setA b.r).setC b.cout).setV b.v).setNZ b.r

/-- `AND` (R176). -/
def andA (m : Byte) (s : State) : State := s.loadA (s.a &&& m)

/-- `ORA` (R177). -/
def ora (m : Byte) (s : State) : State := s.loadA (s.a ||| m)

/-- `EOR` (R178). -/
def eor (m : Byte) (s : State) : State := s.loadA (s.a ^^^ m)

/-- A compare of register value `r` with `m` (R179): C is "no borrow", N and Z describe the difference. -/
def compareReg (r m : Byte) (s : State) : State :=
  (s.setC (decide (m.toNat ≤ r.toNat))).setNZ (r - m)

/-- `CMP` (R179). -/
def cmp (m : Byte) (s : State) : State := compareReg s.a m s

/-- `CPX` (R180). -/
def cpx (m : Byte) (s : State) : State := compareReg s.x m s

/-- `CPY` (R181). -/
def cpy (m : Byte) (s : State) : State := compareReg s.y m s

/-- `BIT` immediate (R182): only Z. -/
def bitImm (m : Byte) (s : State) : State := s.setZ (s.a &&& m == 0)

/-- `BIT` of a memory byte (R182). -/
def bitMem (m : Byte) (s : State) : State :=
  s.setP { s.p with n := m.getLsbD 7, v := m.getLsbD 6, z := s.a &&& m == 0 }

/-- `LDA` (R152). -/
def lda (m : Byte) (s : State) : State := s.loadA m

/-- `LDX` (R153). -/
def ldx (m : Byte) (s : State) : State := s.loadX m

/-- `LDY` (R154). -/
def ldy (m : Byte) (s : State) : State := s.loadY m

/-- A read whose byte is discarded (R304 to R307). -/
def ignore (_ : Byte) (s : State) : State := s

/-- What a read-modify-write computes from the old byte: the new byte, and the state with its flags. -/
abbrev Modify := Byte → State → Byte × State

/-- `ASL` (R192). -/
def asl : Modify := fun v s =>
  let r := v <<< 1
  (r, (s.setC (v.getLsbD 7)).setNZ r)

/-- `LSR` (R193). -/
def lsr : Modify := fun v s =>
  let r := v >>> 1
  (r, (s.setC (v.getLsbD 0)).setNZ r)

/-- `ROL` (R194). -/
def rol : Modify := fun v s =>
  let r := (v <<< 1) ||| (BitVec.ofBool s.p.c).setWidth 8
  (r, (s.setC (v.getLsbD 7)).setNZ r)

/-- `ROR` (R195). -/
def ror : Modify := fun v s =>
  let r := (v >>> 1) ||| ((BitVec.ofBool s.p.c).setWidth 8 <<< 7)
  (r, (s.setC (v.getLsbD 0)).setNZ r)

/-- `INC` and its register forms (R196, R198, R199). -/
def incByte : Modify := fun v s => (v + 1, s.setNZ (v + 1))

/-- `DEC` and its register forms (R197, R200, R201). -/
def decByte : Modify := fun v s => (v - 1, s.setNZ (v - 1))

/-- `TSB` (R202). -/
def tsb : Modify := fun v s => (v ||| s.a, s.setZ (s.a &&& v == 0))

/-- `TRB` (R203). -/
def trb : Modify := fun v s => (v &&& ~~~s.a, s.setZ (s.a &&& v == 0))

/-- The mask `1 << n` of a bit instruction. -/
def bitMask (n : Fin 8) : Byte := 1 <<< n.val

/-- `RMBn` (R204). -/
def rmb (n : Fin 8) : Modify := fun v s => (v &&& ~~~(bitMask n), s)

/-- `SMBn` (R205). -/
def smb (n : Fin 8) : Modify := fun v s => (v ||| bitMask n, s)

end Sys2Proof.Machine
end

