-- ==== Sys2Proof/Machine/Operands.lean ====
section
/-! DEFINITION. The addressing-mode resolvers (R120 to R137) and the access templates the instruction rules
name (R150, R151, R190, R191, R220, R221, R230, R237, R267). -/

namespace Sys2Proof.Machine

/-- An addressing mode with a memory operand, and its operand bytes (R123 to R133). -/
inductive Mode where
  /-- `IMM` (R123) -/
  | imm (d : Byte)
  /-- `ZP` (R124) -/
  | zp (d : Byte)
  /-- `ZPX` (R125) -/
  | zpx (d : Byte)
  /-- `ZPY` (R126) -/
  | zpy (d : Byte)
  /-- `ABS` (R127) -/
  | abs (al ah : Byte)
  /-- `ABSX` (R128) -/
  | absx (al ah : Byte)
  /-- `ABSY` (R129) -/
  | absy (al ah : Byte)
  /-- `ZPI` (R131) -/
  | zpi (d : Byte)
  /-- `ZPXI` (R132) -/
  | zpxi (d : Byte)
  /-- `ZPIY` (R133) -/
  | zpiy (d : Byte)
  deriving DecidableEq, Repr

/-- The class of the operation that uses a resolver (R120). -/
inductive Kind where
  | read
  | store
  | rmwShift
  | rmwIncDec
  deriving DecidableEq, Repr

/-- Whether the dead read is made (R130). -/
def Kind.deadRead (kind : Kind) (penalty : Bool) : Bool :=
  match kind with
  | .read | .rmwShift => penalty
  | .store | .rmwIncDec => true

/-- The effective address of an indexed mode (R128, R129, R133). -/
def indexed (base : Word) (index : Byte) : Word := base + zext index

/-- `wrong`: the high byte not carried into (R128, R130, R133). -/
def wrongAddr (base : Word) (index : Byte) : Word := word (hi8 base) (lo8 base + index)

/-- `page_penalty` (R128, R130). -/
def pagePenalty (base : Word) (index : Byte) : Bool := hi8 (indexed base index) != hi8 base

/-- The end of an indexed resolver (R130): the dead read where the kind calls for it. -/
def indexBy (kind : Kind) (base : Word) (index : Byte) (s : State) (k : Word → State → Action) : Action :=
  let ea := indexed base index
  let s := (s.latchAux base).latchEa ea (pagePenalty base index)
  if kind.deadRead (pagePenalty base index) then idle (wrongAddr base index) s (k ea) else k ea s

/-- An index added to a zero-page base address, within page 0 (R125, R126). -/
def zpIndexed (base index : Byte) (s : State) (k : Word → State → Action) : Action :=
  k (zext (base + index)) (s.latchEa (zext (base + index)) false)

/-- The two bytes of a zero-page pointer, the second at `(p + 1) & $FF` (R131 to R133). -/
def zpPointer (p : Byte) (s : State) (k : Word → State → Action) : Action :=
  .cycle (.read (zext p)) (s.latchAux (zext p)) fun pl s =>
  .cycle (.read (zext (p + 1))) s fun ph s =>
  k (word ph pl) s

/-- The operand bytes of an absolute mode, low then high (R127). -/
def fetchAbs (al ah : Byte) (s : State) (k : Word → State → Action) : Action :=
  .cycle (.fetch al) s fun al s =>
  .cycle (.fetch ah) s fun ah s =>
  k (word ah al) s

/-- The resolver of a mode (R120 to R133): the accesses up to the data access, then the effective address.
For immediate mode that is the address of the operand byte, whose fetch is the data access (R123).
`ctx.aux` holds the pointer address or the base address from the cycle on that completes it (R35). Immediate, zero page
and absolute have neither; that they leave it cleared is the model's choice (log entry 20). -/
def resolve (m : Mode) (kind : Kind) (s : State) (k : Word → State → Action) : Action :=
  match m with
  | .imm _ => k s.pc (s.latchEa s.pc false)
  | .zp d => .cycle (.fetch d) s fun d s => k (zext d) (s.latchEa (zext d) false)
  | .zpx d =>
    .cycle (.fetch d) s fun d s =>
    idle (s.pc - 1) (s.latchAux (zext d)) fun s => zpIndexed d s.x s k
  | .zpy d =>
    .cycle (.fetch d) s fun d s =>
    idle (s.pc - 1) (s.latchAux (zext d)) fun s => zpIndexed d s.y s k
  | .abs al ah => fetchAbs al ah s fun ea s => k ea (s.latchEa ea false)
  | .absx al ah => fetchAbs al ah s fun base s => indexBy kind base s.x s k
  | .absy al ah => fetchAbs al ah s fun base s => indexBy kind base s.y s k
  | .zpi d =>
    .cycle (.fetch d) s fun d s =>
    zpPointer d s fun ea s => k ea (s.latchEa ea false)
  | .zpxi d =>
    .cycle (.fetch d) s fun d s =>
    idle (s.pc - 1) (s.latchAux (zext d)) fun s =>
    zpPointer (d + s.x) s fun ea s => k ea (s.latchEa ea false)
  | .zpiy d =>
    .cycle (.fetch d) s fun d s =>
    zpPointer d s fun base s => indexBy kind base s.y s k

/-- The access that reads the operand (R120, R123). -/
def Mode.dataAccess (m : Mode) (ea : Word) : BusOp :=
  match m with
  | .imm d => .fetch d
  | _ => .read ea

/-- The read template (R150). -/
def readInstr (opcode : Byte) (m : Mode) (f : Byte → State → State) (s : State) : Action :=
  start opcode s fun s =>
  resolve m .read s fun ea s =>
  last (m.dataAccess ea) s fun v s =>
  finish (f v s)

/-- The read template of `ADC` and `SBC` (R150, R170): one more cycle, a dummy read of the operand address,
when `P.D` is set. -/
def decimalInstr (opcode : Byte) (m : Mode) (f : Byte → State → State) (s : State) : Action :=
  start opcode s fun s =>
  resolve m .read s fun ea s =>
  if s.p.d then
    .cycle (m.dataAccess ea) s fun v s =>
    last (.read ea) (s.latchData v) fun _ s =>
    finish (f v s)
  else
    last (m.dataAccess ea) s fun v s =>
    finish (f v s)

/-- The store template (R151). -/
def storeInstr (opcode : Byte) (m : Mode) (v : State → Byte) (s : State) : Action :=
  start opcode s fun s =>
  resolve m .store s fun ea s =>
  last (.write ea (v s)) s fun _ s =>
  finish s

/-- The middle cycle of a read-modify-write (R190, D5). -/
def dummyWrite (ea : Word) (old : Byte) (s : State) (k : State → Action) : Action :=
  match s.params.rmwDummy with
  | .writeOld => .cycle (.write ea old) s fun _ s => k s
  | .writeIntermediate => .cycle (.write ea (Config.freeByte s.draws)) s.drawn fun _ s => k s
  | .read => idle ea s k

/-- The memory read-modify-write template (R190): one read and, by default, two writes. -/
def rmwInstr (opcode : Byte) (m : Mode) (kind : Kind) (f : Modify) (s : State) : Action :=
  start opcode s fun s =>
  resolve m kind s fun ea s =>
  .cycle (.read ea) s fun old s =>
  dummyWrite ea old (s.latchData old) fun s =>
  last (.write ea (f old s).1) s fun _ s =>
  finish (f old s).2

/-- A two-cycle instruction without a memory operand: the second cycle is `Idle(PC)` (R121, R122, R230,
R237). -/
def impliedInstr (opcode : Byte) (f : State → State) (s : State) : Action :=
  start opcode s fun s =>
  last (.read s.pc) s fun _ s =>
  finish (f s)

/-- The accumulator form of a read-modify-write (R122, R191). -/
def modifyA (f : Modify) (s : State) : State := (f s.a s).2.setA (f s.a s).1

/-- `INX`, `DEX` (R191, R198, R200). -/
def modifyX (f : Modify) (s : State) : State := (f s.x s).2.setX (f s.x s).1

/-- `INY`, `DEY` (R191, R199, R201). -/
def modifyY (f : Modify) (s : State) : State := (f s.y s).2.setY (f s.y s).1

/-- The push template (R140, R220). -/
def pushInstr (opcode : Byte) (v : State → Byte) (s : State) : Action :=
  start opcode s fun s =>
  idle s.pc s fun s =>
  push (v s) s.sample finish

/-- The pull template (R140, R221). -/
def pullInstr (opcode : Byte) (f : Byte → State → State) (s : State) : Action :=
  start opcode s fun s =>
  idle s.pc s fun s =>
  idle s.stackAddr s fun s =>
  pull s.sample fun v s =>
  finish (f v s)

/-- The target of a relative branch, `PC` being the fall-through address (R136). -/
def branchTarget (pc : Word) (d : Byte) : Word := pc + sext d

/-- The cycles of a taken branch (R136, R137): one, or two when the target's page differs from that of the
fall-through address. -/
def takeBranch (d : Byte) (s : State) : Action :=
  let target := branchTarget s.pc d
  if hi8 target = hi8 s.pc then
    last (.read s.pc) s fun _ s => finish (s.setPc target)
  else
    idle s.pc s fun s =>
    last (.read (word (hi8 s.pc) (lo8 target))) s fun _ s => finish (s.setPc target)

/-- The branch template (R136, R267). A branch not taken has two cycles, so its sample is the one at the end
of the first. -/
def branchInstr (opcode d : Byte) (taken : State → Bool) (s : State) : Action :=
  start opcode s fun s =>
  let early := s.sampled
  .cycle (.fetch d) s fun d s =>
  if taken s then takeBranch d s else finish (s.setCommitted early)

/-- `BBRn` and `BBSn` (R137, R277, R278): taken when bit `n` of the zero-page byte is `want`. -/
def bitBranchInstr (opcode : Byte) (n : Fin 8) (want : Bool) (zp rel : Byte) (s : State) : Action :=
  start opcode s fun s =>
  .cycle (.fetch zp) s fun zp s =>
  .cycle (.read (zext zp)) s fun m s =>
  idle (zext zp) (s.latchData m) fun s =>
  if m.getLsbD n = want then
    .cycle (.fetch rel) s fun d s => takeBranch d s
  else
    last (.fetch rel) s fun _ s => finish s

end Sys2Proof.Machine
end

