-- ==== Sys2Proof/Machine/Alu.lean ====
section
/-! DEFINITION. Arithmetic, logic, compare and bit test (42_alu.md, R170 to R182). For each opcode, `cycles…` is
its access sequence and `exec…` its meaning as one step. -/

namespace Sys2Proof.Machine

/-- $01 `ORA (zp,X)` (R177). -/
def cyclesOraZpxi (d : Byte) (s : State) : Action := readInstr 0x01 (.zpxi d) ora s
/-- $01 `ORA (zp,X)` as one step (R177). -/
def execOraZpxi (d : Byte) (s : State) : Result := complete (cyclesOraZpxi d s)

/-- $05 `ORA zp` (R177). -/
def cyclesOraZp (d : Byte) (s : State) : Action := readInstr 0x05 (.zp d) ora s
/-- $05 `ORA zp` as one step (R177). -/
def execOraZp (d : Byte) (s : State) : Result := complete (cyclesOraZp d s)

/-- $09 `ORA #` (R177). -/
def cyclesOraImm (d : Byte) (s : State) : Action := readInstr 0x09 (.imm d) ora s
/-- $09 `ORA #` as one step (R177). -/
def execOraImm (d : Byte) (s : State) : Result := complete (cyclesOraImm d s)

/-- $0D `ORA abs` (R177). -/
def cyclesOraAbs (al ah : Byte) (s : State) : Action := readInstr 0x0D (.abs al ah) ora s
/-- $0D `ORA abs` as one step (R177). -/
def execOraAbs (al ah : Byte) (s : State) : Result := complete (cyclesOraAbs al ah s)

/-- $11 `ORA (zp),Y` (R177). -/
def cyclesOraZpiy (d : Byte) (s : State) : Action := readInstr 0x11 (.zpiy d) ora s
/-- $11 `ORA (zp),Y` as one step (R177). -/
def execOraZpiy (d : Byte) (s : State) : Result := complete (cyclesOraZpiy d s)

/-- $12 `ORA (zp)` (R177). -/
def cyclesOraZpi (d : Byte) (s : State) : Action := readInstr 0x12 (.zpi d) ora s
/-- $12 `ORA (zp)` as one step (R177). -/
def execOraZpi (d : Byte) (s : State) : Result := complete (cyclesOraZpi d s)

/-- $15 `ORA zp,X` (R177). -/
def cyclesOraZpx (d : Byte) (s : State) : Action := readInstr 0x15 (.zpx d) ora s
/-- $15 `ORA zp,X` as one step (R177). -/
def execOraZpx (d : Byte) (s : State) : Result := complete (cyclesOraZpx d s)

/-- $19 `ORA abs,Y` (R177). -/
def cyclesOraAbsy (al ah : Byte) (s : State) : Action := readInstr 0x19 (.absy al ah) ora s
/-- $19 `ORA abs,Y` as one step (R177). -/
def execOraAbsy (al ah : Byte) (s : State) : Result := complete (cyclesOraAbsy al ah s)

/-- $1D `ORA abs,X` (R177). -/
def cyclesOraAbsx (al ah : Byte) (s : State) : Action := readInstr 0x1D (.absx al ah) ora s
/-- $1D `ORA abs,X` as one step (R177). -/
def execOraAbsx (al ah : Byte) (s : State) : Result := complete (cyclesOraAbsx al ah s)

/-- $21 `AND (zp,X)` (R176). -/
def cyclesAndZpxi (d : Byte) (s : State) : Action := readInstr 0x21 (.zpxi d) andA s
/-- $21 `AND (zp,X)` as one step (R176). -/
def execAndZpxi (d : Byte) (s : State) : Result := complete (cyclesAndZpxi d s)

/-- $24 `BIT zp` (R182). -/
def cyclesBitZp (d : Byte) (s : State) : Action := readInstr 0x24 (.zp d) bitMem s
/-- $24 `BIT zp` as one step (R182). -/
def execBitZp (d : Byte) (s : State) : Result := complete (cyclesBitZp d s)

/-- $25 `AND zp` (R176). -/
def cyclesAndZp (d : Byte) (s : State) : Action := readInstr 0x25 (.zp d) andA s
/-- $25 `AND zp` as one step (R176). -/
def execAndZp (d : Byte) (s : State) : Result := complete (cyclesAndZp d s)

/-- $29 `AND #` (R176). -/
def cyclesAndImm (d : Byte) (s : State) : Action := readInstr 0x29 (.imm d) andA s
/-- $29 `AND #` as one step (R176). -/
def execAndImm (d : Byte) (s : State) : Result := complete (cyclesAndImm d s)

/-- $2C `BIT abs` (R182). -/
def cyclesBitAbs (al ah : Byte) (s : State) : Action := readInstr 0x2C (.abs al ah) bitMem s
/-- $2C `BIT abs` as one step (R182). -/
def execBitAbs (al ah : Byte) (s : State) : Result := complete (cyclesBitAbs al ah s)

/-- $2D `AND abs` (R176). -/
def cyclesAndAbs (al ah : Byte) (s : State) : Action := readInstr 0x2D (.abs al ah) andA s
/-- $2D `AND abs` as one step (R176). -/
def execAndAbs (al ah : Byte) (s : State) : Result := complete (cyclesAndAbs al ah s)

/-- $31 `AND (zp),Y` (R176). -/
def cyclesAndZpiy (d : Byte) (s : State) : Action := readInstr 0x31 (.zpiy d) andA s
/-- $31 `AND (zp),Y` as one step (R176). -/
def execAndZpiy (d : Byte) (s : State) : Result := complete (cyclesAndZpiy d s)

/-- $32 `AND (zp)` (R176). -/
def cyclesAndZpi (d : Byte) (s : State) : Action := readInstr 0x32 (.zpi d) andA s
/-- $32 `AND (zp)` as one step (R176). -/
def execAndZpi (d : Byte) (s : State) : Result := complete (cyclesAndZpi d s)

/-- $34 `BIT zp,X` (R182). -/
def cyclesBitZpx (d : Byte) (s : State) : Action := readInstr 0x34 (.zpx d) bitMem s
/-- $34 `BIT zp,X` as one step (R182). -/
def execBitZpx (d : Byte) (s : State) : Result := complete (cyclesBitZpx d s)

/-- $35 `AND zp,X` (R176). -/
def cyclesAndZpx (d : Byte) (s : State) : Action := readInstr 0x35 (.zpx d) andA s
/-- $35 `AND zp,X` as one step (R176). -/
def execAndZpx (d : Byte) (s : State) : Result := complete (cyclesAndZpx d s)

/-- $39 `AND abs,Y` (R176). -/
def cyclesAndAbsy (al ah : Byte) (s : State) : Action := readInstr 0x39 (.absy al ah) andA s
/-- $39 `AND abs,Y` as one step (R176). -/
def execAndAbsy (al ah : Byte) (s : State) : Result := complete (cyclesAndAbsy al ah s)

/-- $3C `BIT abs,X` (R182). -/
def cyclesBitAbsx (al ah : Byte) (s : State) : Action := readInstr 0x3C (.absx al ah) bitMem s
/-- $3C `BIT abs,X` as one step (R182). -/
def execBitAbsx (al ah : Byte) (s : State) : Result := complete (cyclesBitAbsx al ah s)

/-- $3D `AND abs,X` (R176). -/
def cyclesAndAbsx (al ah : Byte) (s : State) : Action := readInstr 0x3D (.absx al ah) andA s
/-- $3D `AND abs,X` as one step (R176). -/
def execAndAbsx (al ah : Byte) (s : State) : Result := complete (cyclesAndAbsx al ah s)

/-- $41 `EOR (zp,X)` (R178). -/
def cyclesEorZpxi (d : Byte) (s : State) : Action := readInstr 0x41 (.zpxi d) eor s
/-- $41 `EOR (zp,X)` as one step (R178). -/
def execEorZpxi (d : Byte) (s : State) : Result := complete (cyclesEorZpxi d s)

/-- $45 `EOR zp` (R178). -/
def cyclesEorZp (d : Byte) (s : State) : Action := readInstr 0x45 (.zp d) eor s
/-- $45 `EOR zp` as one step (R178). -/
def execEorZp (d : Byte) (s : State) : Result := complete (cyclesEorZp d s)

/-- $49 `EOR #` (R178). -/
def cyclesEorImm (d : Byte) (s : State) : Action := readInstr 0x49 (.imm d) eor s
/-- $49 `EOR #` as one step (R178). -/
def execEorImm (d : Byte) (s : State) : Result := complete (cyclesEorImm d s)

/-- $4D `EOR abs` (R178). -/
def cyclesEorAbs (al ah : Byte) (s : State) : Action := readInstr 0x4D (.abs al ah) eor s
/-- $4D `EOR abs` as one step (R178). -/
def execEorAbs (al ah : Byte) (s : State) : Result := complete (cyclesEorAbs al ah s)

/-- $51 `EOR (zp),Y` (R178). -/
def cyclesEorZpiy (d : Byte) (s : State) : Action := readInstr 0x51 (.zpiy d) eor s
/-- $51 `EOR (zp),Y` as one step (R178). -/
def execEorZpiy (d : Byte) (s : State) : Result := complete (cyclesEorZpiy d s)

/-- $52 `EOR (zp)` (R178). -/
def cyclesEorZpi (d : Byte) (s : State) : Action := readInstr 0x52 (.zpi d) eor s
/-- $52 `EOR (zp)` as one step (R178). -/
def execEorZpi (d : Byte) (s : State) : Result := complete (cyclesEorZpi d s)

/-- $55 `EOR zp,X` (R178). -/
def cyclesEorZpx (d : Byte) (s : State) : Action := readInstr 0x55 (.zpx d) eor s
/-- $55 `EOR zp,X` as one step (R178). -/
def execEorZpx (d : Byte) (s : State) : Result := complete (cyclesEorZpx d s)

/-- $59 `EOR abs,Y` (R178). -/
def cyclesEorAbsy (al ah : Byte) (s : State) : Action := readInstr 0x59 (.absy al ah) eor s
/-- $59 `EOR abs,Y` as one step (R178). -/
def execEorAbsy (al ah : Byte) (s : State) : Result := complete (cyclesEorAbsy al ah s)

/-- $5D `EOR abs,X` (R178). -/
def cyclesEorAbsx (al ah : Byte) (s : State) : Action := readInstr 0x5D (.absx al ah) eor s
/-- $5D `EOR abs,X` as one step (R178). -/
def execEorAbsx (al ah : Byte) (s : State) : Result := complete (cyclesEorAbsx al ah s)

/-- $61 `ADC (zp,X)` (R174). -/
def cyclesAdcZpxi (d : Byte) (s : State) : Action := decimalInstr 0x61 (.zpxi d) adc s
/-- $61 `ADC (zp,X)` as one step (R174). -/
def execAdcZpxi (d : Byte) (s : State) : Result := complete (cyclesAdcZpxi d s)

/-- $65 `ADC zp` (R174). -/
def cyclesAdcZp (d : Byte) (s : State) : Action := decimalInstr 0x65 (.zp d) adc s
/-- $65 `ADC zp` as one step (R174). -/
def execAdcZp (d : Byte) (s : State) : Result := complete (cyclesAdcZp d s)

/-- $69 `ADC #` (R174). -/
def cyclesAdcImm (d : Byte) (s : State) : Action := decimalInstr 0x69 (.imm d) adc s
/-- $69 `ADC #` as one step (R174). -/
def execAdcImm (d : Byte) (s : State) : Result := complete (cyclesAdcImm d s)

/-- $6D `ADC abs` (R174). -/
def cyclesAdcAbs (al ah : Byte) (s : State) : Action := decimalInstr 0x6D (.abs al ah) adc s
/-- $6D `ADC abs` as one step (R174). -/
def execAdcAbs (al ah : Byte) (s : State) : Result := complete (cyclesAdcAbs al ah s)

/-- $71 `ADC (zp),Y` (R174). -/
def cyclesAdcZpiy (d : Byte) (s : State) : Action := decimalInstr 0x71 (.zpiy d) adc s
/-- $71 `ADC (zp),Y` as one step (R174). -/
def execAdcZpiy (d : Byte) (s : State) : Result := complete (cyclesAdcZpiy d s)

/-- $72 `ADC (zp)` (R174). -/
def cyclesAdcZpi (d : Byte) (s : State) : Action := decimalInstr 0x72 (.zpi d) adc s
/-- $72 `ADC (zp)` as one step (R174). -/
def execAdcZpi (d : Byte) (s : State) : Result := complete (cyclesAdcZpi d s)

/-- $75 `ADC zp,X` (R174). -/
def cyclesAdcZpx (d : Byte) (s : State) : Action := decimalInstr 0x75 (.zpx d) adc s
/-- $75 `ADC zp,X` as one step (R174). -/
def execAdcZpx (d : Byte) (s : State) : Result := complete (cyclesAdcZpx d s)

/-- $79 `ADC abs,Y` (R174). -/
def cyclesAdcAbsy (al ah : Byte) (s : State) : Action := decimalInstr 0x79 (.absy al ah) adc s
/-- $79 `ADC abs,Y` as one step (R174). -/
def execAdcAbsy (al ah : Byte) (s : State) : Result := complete (cyclesAdcAbsy al ah s)

/-- $7D `ADC abs,X` (R174). -/
def cyclesAdcAbsx (al ah : Byte) (s : State) : Action := decimalInstr 0x7D (.absx al ah) adc s
/-- $7D `ADC abs,X` as one step (R174). -/
def execAdcAbsx (al ah : Byte) (s : State) : Result := complete (cyclesAdcAbsx al ah s)

/-- $89 `BIT #` (R182). -/
def cyclesBitImm (d : Byte) (s : State) : Action := readInstr 0x89 (.imm d) bitImm s
/-- $89 `BIT #` as one step (R182). -/
def execBitImm (d : Byte) (s : State) : Result := complete (cyclesBitImm d s)

/-- $C0 `CPY #` (R181). -/
def cyclesCpyImm (d : Byte) (s : State) : Action := readInstr 0xC0 (.imm d) cpy s
/-- $C0 `CPY #` as one step (R181). -/
def execCpyImm (d : Byte) (s : State) : Result := complete (cyclesCpyImm d s)

/-- $C1 `CMP (zp,X)` (R179). -/
def cyclesCmpZpxi (d : Byte) (s : State) : Action := readInstr 0xC1 (.zpxi d) cmp s
/-- $C1 `CMP (zp,X)` as one step (R179). -/
def execCmpZpxi (d : Byte) (s : State) : Result := complete (cyclesCmpZpxi d s)

/-- $C4 `CPY zp` (R181). -/
def cyclesCpyZp (d : Byte) (s : State) : Action := readInstr 0xC4 (.zp d) cpy s
/-- $C4 `CPY zp` as one step (R181). -/
def execCpyZp (d : Byte) (s : State) : Result := complete (cyclesCpyZp d s)

/-- $C5 `CMP zp` (R179). -/
def cyclesCmpZp (d : Byte) (s : State) : Action := readInstr 0xC5 (.zp d) cmp s
/-- $C5 `CMP zp` as one step (R179). -/
def execCmpZp (d : Byte) (s : State) : Result := complete (cyclesCmpZp d s)

/-- $C9 `CMP #` (R179). -/
def cyclesCmpImm (d : Byte) (s : State) : Action := readInstr 0xC9 (.imm d) cmp s
/-- $C9 `CMP #` as one step (R179). -/
def execCmpImm (d : Byte) (s : State) : Result := complete (cyclesCmpImm d s)

/-- $CC `CPY abs` (R181). -/
def cyclesCpyAbs (al ah : Byte) (s : State) : Action := readInstr 0xCC (.abs al ah) cpy s
/-- $CC `CPY abs` as one step (R181). -/
def execCpyAbs (al ah : Byte) (s : State) : Result := complete (cyclesCpyAbs al ah s)

/-- $CD `CMP abs` (R179). -/
def cyclesCmpAbs (al ah : Byte) (s : State) : Action := readInstr 0xCD (.abs al ah) cmp s
/-- $CD `CMP abs` as one step (R179). -/
def execCmpAbs (al ah : Byte) (s : State) : Result := complete (cyclesCmpAbs al ah s)

/-- $D1 `CMP (zp),Y` (R179). -/
def cyclesCmpZpiy (d : Byte) (s : State) : Action := readInstr 0xD1 (.zpiy d) cmp s
/-- $D1 `CMP (zp),Y` as one step (R179). -/
def execCmpZpiy (d : Byte) (s : State) : Result := complete (cyclesCmpZpiy d s)

/-- $D2 `CMP (zp)` (R179). -/
def cyclesCmpZpi (d : Byte) (s : State) : Action := readInstr 0xD2 (.zpi d) cmp s
/-- $D2 `CMP (zp)` as one step (R179). -/
def execCmpZpi (d : Byte) (s : State) : Result := complete (cyclesCmpZpi d s)

/-- $D5 `CMP zp,X` (R179). -/
def cyclesCmpZpx (d : Byte) (s : State) : Action := readInstr 0xD5 (.zpx d) cmp s
/-- $D5 `CMP zp,X` as one step (R179). -/
def execCmpZpx (d : Byte) (s : State) : Result := complete (cyclesCmpZpx d s)

/-- $D9 `CMP abs,Y` (R179). -/
def cyclesCmpAbsy (al ah : Byte) (s : State) : Action := readInstr 0xD9 (.absy al ah) cmp s
/-- $D9 `CMP abs,Y` as one step (R179). -/
def execCmpAbsy (al ah : Byte) (s : State) : Result := complete (cyclesCmpAbsy al ah s)

/-- $DD `CMP abs,X` (R179). -/
def cyclesCmpAbsx (al ah : Byte) (s : State) : Action := readInstr 0xDD (.absx al ah) cmp s
/-- $DD `CMP abs,X` as one step (R179). -/
def execCmpAbsx (al ah : Byte) (s : State) : Result := complete (cyclesCmpAbsx al ah s)

/-- $E0 `CPX #` (R180). -/
def cyclesCpxImm (d : Byte) (s : State) : Action := readInstr 0xE0 (.imm d) cpx s
/-- $E0 `CPX #` as one step (R180). -/
def execCpxImm (d : Byte) (s : State) : Result := complete (cyclesCpxImm d s)

/-- $E1 `SBC (zp,X)` (R175). -/
def cyclesSbcZpxi (d : Byte) (s : State) : Action := decimalInstr 0xE1 (.zpxi d) sbc s
/-- $E1 `SBC (zp,X)` as one step (R175). -/
def execSbcZpxi (d : Byte) (s : State) : Result := complete (cyclesSbcZpxi d s)

/-- $E4 `CPX zp` (R180). -/
def cyclesCpxZp (d : Byte) (s : State) : Action := readInstr 0xE4 (.zp d) cpx s
/-- $E4 `CPX zp` as one step (R180). -/
def execCpxZp (d : Byte) (s : State) : Result := complete (cyclesCpxZp d s)

/-- $E5 `SBC zp` (R175). -/
def cyclesSbcZp (d : Byte) (s : State) : Action := decimalInstr 0xE5 (.zp d) sbc s
/-- $E5 `SBC zp` as one step (R175). -/
def execSbcZp (d : Byte) (s : State) : Result := complete (cyclesSbcZp d s)

/-- $E9 `SBC #` (R175). -/
def cyclesSbcImm (d : Byte) (s : State) : Action := decimalInstr 0xE9 (.imm d) sbc s
/-- $E9 `SBC #` as one step (R175). -/
def execSbcImm (d : Byte) (s : State) : Result := complete (cyclesSbcImm d s)

/-- $EC `CPX abs` (R180). -/
def cyclesCpxAbs (al ah : Byte) (s : State) : Action := readInstr 0xEC (.abs al ah) cpx s
/-- $EC `CPX abs` as one step (R180). -/
def execCpxAbs (al ah : Byte) (s : State) : Result := complete (cyclesCpxAbs al ah s)

/-- $ED `SBC abs` (R175). -/
def cyclesSbcAbs (al ah : Byte) (s : State) : Action := decimalInstr 0xED (.abs al ah) sbc s
/-- $ED `SBC abs` as one step (R175). -/
def execSbcAbs (al ah : Byte) (s : State) : Result := complete (cyclesSbcAbs al ah s)

/-- $F1 `SBC (zp),Y` (R175). -/
def cyclesSbcZpiy (d : Byte) (s : State) : Action := decimalInstr 0xF1 (.zpiy d) sbc s
/-- $F1 `SBC (zp),Y` as one step (R175). -/
def execSbcZpiy (d : Byte) (s : State) : Result := complete (cyclesSbcZpiy d s)

/-- $F2 `SBC (zp)` (R175). -/
def cyclesSbcZpi (d : Byte) (s : State) : Action := decimalInstr 0xF2 (.zpi d) sbc s
/-- $F2 `SBC (zp)` as one step (R175). -/
def execSbcZpi (d : Byte) (s : State) : Result := complete (cyclesSbcZpi d s)

/-- $F5 `SBC zp,X` (R175). -/
def cyclesSbcZpx (d : Byte) (s : State) : Action := decimalInstr 0xF5 (.zpx d) sbc s
/-- $F5 `SBC zp,X` as one step (R175). -/
def execSbcZpx (d : Byte) (s : State) : Result := complete (cyclesSbcZpx d s)

/-- $F9 `SBC abs,Y` (R175). -/
def cyclesSbcAbsy (al ah : Byte) (s : State) : Action := decimalInstr 0xF9 (.absy al ah) sbc s
/-- $F9 `SBC abs,Y` as one step (R175). -/
def execSbcAbsy (al ah : Byte) (s : State) : Result := complete (cyclesSbcAbsy al ah s)

/-- $FD `SBC abs,X` (R175). -/
def cyclesSbcAbsx (al ah : Byte) (s : State) : Action := decimalInstr 0xFD (.absx al ah) sbc s
/-- $FD `SBC abs,X` as one step (R175). -/
def execSbcAbsx (al ah : Byte) (s : State) : Result := complete (cyclesSbcAbsx al ah s)

end Sys2Proof.Machine
end

