-- ==== Sys2Proof/Machine/Control.lean ====
section
/-! DEFINITION. Jumps, subroutines, `BRK`, `RTI`, branches and bit branches (45_control_transfer.md, R260 to
R278). For each opcode, `cycles…` is
its access sequence and `exec…` its meaning as one step. -/

namespace Sys2Proof.Machine

/-- `brk_hook(sig)` is called when it is installed (R266, R410). -/
def State.callBrkHook (s : State) (sig : Byte) : State :=
  if s.hooks.brk then s.call (.brkHook sig) else s

/-- The end of `JMP (abs)` and `JMP (abs,X)` (R134, R135): the pointer's second byte is at the next address,
carrying into the high byte. -/
def jumpThrough (ptr : Word) (s : State) : Action :=
  .cycle (.read ptr) s fun tl s =>
  last (.read (ptr + 1)) s fun th s =>
  finish (s.setPc (word th tl))

/-- $00 `BRK` (R266). -/
def cyclesBrk (sig : Byte) (s : State) : Action :=
  start 0x00 s fun s =>
  let early := s.sampled
  .cycle (.fetch sig) s fun sig s =>
  let suppressed := s.hooks.brk && s.hookAnswer
  let s := s.callBrkHook sig
  if suppressed then finish (s.setCommitted early) else takeInterrupt true Config.vecIrq s
/-- $00 `BRK` as one step (R266). -/
def execBrk (sig : Byte) (s : State) : Result := complete (cyclesBrk sig s)

/-- $0F `BBR0 zp,rel` (R277). -/
def cyclesBbr0 (zp rel : Byte) (s : State) : Action := bitBranchInstr 0x0F 0 false zp rel s
/-- $0F `BBR0 zp,rel` as one step (R277). -/
def execBbr0 (zp rel : Byte) (s : State) : Result := complete (cyclesBbr0 zp rel s)

/-- $10 `BPL rel` (R268). -/
def cyclesBpl (d : Byte) (s : State) : Action := branchInstr 0x10 d (fun s => !s.p.n) s
/-- $10 `BPL rel` as one step (R268). -/
def execBpl (d : Byte) (s : State) : Result := complete (cyclesBpl d s)

/-- $1F `BBR1 zp,rel` (R277). -/
def cyclesBbr1 (zp rel : Byte) (s : State) : Action := bitBranchInstr 0x1F 1 false zp rel s
/-- $1F `BBR1 zp,rel` as one step (R277). -/
def execBbr1 (zp rel : Byte) (s : State) : Result := complete (cyclesBbr1 zp rel s)

/-- $20 `JSR abs` (R263). The third byte is read by cycle 6, after the pushes (R138, R387), so `ah`, which is that byte as
it stood when the instruction was decoded, is not used. -/
def cyclesJsr (al _ah : Byte) (s : State) : Action :=
  start 0x20 s fun s =>
  .cycle (.fetch al) s fun al s =>
  idle s.stackAddr s fun s =>
  push (hi8 s.pc) s fun s =>
  push (lo8 s.pc) s fun s =>
  last (.read s.pc) s fun ah s =>
  finish (s.setPc (word ah al))
/-- $20 `JSR abs` as one step (R263). -/
def execJsr (al ah : Byte) (s : State) : Result := complete (cyclesJsr al ah s)

/-- $2F `BBR2 zp,rel` (R277). -/
def cyclesBbr2 (zp rel : Byte) (s : State) : Action := bitBranchInstr 0x2F 2 false zp rel s
/-- $2F `BBR2 zp,rel` as one step (R277). -/
def execBbr2 (zp rel : Byte) (s : State) : Result := complete (cyclesBbr2 zp rel s)

/-- $30 `BMI rel` (R269). -/
def cyclesBmi (d : Byte) (s : State) : Action := branchInstr 0x30 d (fun s => s.p.n) s
/-- $30 `BMI rel` as one step (R269). -/
def execBmi (d : Byte) (s : State) : Result := complete (cyclesBmi d s)

/-- $3F `BBR3 zp,rel` (R277). -/
def cyclesBbr3 (zp rel : Byte) (s : State) : Action := bitBranchInstr 0x3F 3 false zp rel s
/-- $3F `BBR3 zp,rel` as one step (R277). -/
def execBbr3 (zp rel : Byte) (s : State) : Result := complete (cyclesBbr3 zp rel s)

/-- $40 `RTI` (R265). -/
def cyclesRti (s : State) : Action := start 0x40 s returnFromInterrupt
/-- $40 `RTI` as one step (R265). -/
def execRti (s : State) : Result := complete (cyclesRti s)

/-- $4C `JMP abs` (R260). -/
def cyclesJmpAbs (al ah : Byte) (s : State) : Action :=
  start 0x4C s fun s =>
  .cycle (.fetch al) s fun al s =>
  last (.fetch ah) s fun ah s =>
  finish (s.setPc (word ah al))
/-- $4C `JMP abs` as one step (R260). -/
def execJmpAbs (al ah : Byte) (s : State) : Result := complete (cyclesJmpAbs al ah s)

/-- $4F `BBR4 zp,rel` (R277). -/
def cyclesBbr4 (zp rel : Byte) (s : State) : Action := bitBranchInstr 0x4F 4 false zp rel s
/-- $4F `BBR4 zp,rel` as one step (R277). -/
def execBbr4 (zp rel : Byte) (s : State) : Result := complete (cyclesBbr4 zp rel s)

/-- $50 `BVC rel` (R270). -/
def cyclesBvc (d : Byte) (s : State) : Action := branchInstr 0x50 d (fun s => !s.p.v) s
/-- $50 `BVC rel` as one step (R270). -/
def execBvc (d : Byte) (s : State) : Result := complete (cyclesBvc d s)

/-- $5F `BBR5 zp,rel` (R277). -/
def cyclesBbr5 (zp rel : Byte) (s : State) : Action := bitBranchInstr 0x5F 5 false zp rel s
/-- $5F `BBR5 zp,rel` as one step (R277). -/
def execBbr5 (zp rel : Byte) (s : State) : Result := complete (cyclesBbr5 zp rel s)

/-- $60 `RTS` (R264, R139): `PC` is the pulled address before cycle 6 (log entry 19). -/
def cyclesRts (s : State) : Action :=
  start 0x60 s fun s =>
  idle s.pc s fun s =>
  idle s.stackAddr s fun s =>
  pull s fun pl s =>
  pull s fun ph s =>
  last (.read (word ph pl)) (s.setPc (word ph pl)) fun _ s =>
  finish (s.setPc (s.pc + 1))
/-- $60 `RTS` as one step (R264). -/
def execRts (s : State) : Result := complete (cyclesRts s)

/-- $6C `JMP (abs)` (R261). -/
def cyclesJmpAbsi (al ah : Byte) (s : State) : Action :=
  start 0x6C s fun s =>
  fetchAbs al ah s fun ptr s =>
  idle (s.pc - 1) (s.latchAux ptr) fun s =>
  jumpThrough ptr s
/-- $6C `JMP (abs)` as one step (R261). -/
def execJmpAbsi (al ah : Byte) (s : State) : Result := complete (cyclesJmpAbsi al ah s)

/-- $6F `BBR6 zp,rel` (R277). -/
def cyclesBbr6 (zp rel : Byte) (s : State) : Action := bitBranchInstr 0x6F 6 false zp rel s
/-- $6F `BBR6 zp,rel` as one step (R277). -/
def execBbr6 (zp rel : Byte) (s : State) : Result := complete (cyclesBbr6 zp rel s)

/-- $70 `BVS rel` (R271). -/
def cyclesBvs (d : Byte) (s : State) : Action := branchInstr 0x70 d (fun s => s.p.v) s
/-- $70 `BVS rel` as one step (R271). -/
def execBvs (d : Byte) (s : State) : Result := complete (cyclesBvs d s)

/-- $7C `JMP (abs,X)` (R262). -/
def cyclesJmpAbsxi (al ah : Byte) (s : State) : Action :=
  start 0x7C s fun s =>
  fetchAbs al ah s fun base s =>
  idle (s.pc - 1) (s.latchAux base) fun s =>
  jumpThrough (indexed base s.x) (s.latchAux (indexed base s.x))
/-- $7C `JMP (abs,X)` as one step (R262). -/
def execJmpAbsxi (al ah : Byte) (s : State) : Result := complete (cyclesJmpAbsxi al ah s)

/-- $7F `BBR7 zp,rel` (R277). -/
def cyclesBbr7 (zp rel : Byte) (s : State) : Action := bitBranchInstr 0x7F 7 false zp rel s
/-- $7F `BBR7 zp,rel` as one step (R277). -/
def execBbr7 (zp rel : Byte) (s : State) : Result := complete (cyclesBbr7 zp rel s)

/-- $80 `BRA rel` (R276). -/
def cyclesBra (d : Byte) (s : State) : Action := branchInstr 0x80 d (fun _ => true) s
/-- $80 `BRA rel` as one step (R276). -/
def execBra (d : Byte) (s : State) : Result := complete (cyclesBra d s)

/-- $8F `BBS0 zp,rel` (R278). -/
def cyclesBbs0 (zp rel : Byte) (s : State) : Action := bitBranchInstr 0x8F 0 true zp rel s
/-- $8F `BBS0 zp,rel` as one step (R278). -/
def execBbs0 (zp rel : Byte) (s : State) : Result := complete (cyclesBbs0 zp rel s)

/-- $90 `BCC rel` (R272). -/
def cyclesBcc (d : Byte) (s : State) : Action := branchInstr 0x90 d (fun s => !s.p.c) s
/-- $90 `BCC rel` as one step (R272). -/
def execBcc (d : Byte) (s : State) : Result := complete (cyclesBcc d s)

/-- $9F `BBS1 zp,rel` (R278). -/
def cyclesBbs1 (zp rel : Byte) (s : State) : Action := bitBranchInstr 0x9F 1 true zp rel s
/-- $9F `BBS1 zp,rel` as one step (R278). -/
def execBbs1 (zp rel : Byte) (s : State) : Result := complete (cyclesBbs1 zp rel s)

/-- $AF `BBS2 zp,rel` (R278). -/
def cyclesBbs2 (zp rel : Byte) (s : State) : Action := bitBranchInstr 0xAF 2 true zp rel s
/-- $AF `BBS2 zp,rel` as one step (R278). -/
def execBbs2 (zp rel : Byte) (s : State) : Result := complete (cyclesBbs2 zp rel s)

/-- $B0 `BCS rel` (R273). -/
def cyclesBcs (d : Byte) (s : State) : Action := branchInstr 0xB0 d (fun s => s.p.c) s
/-- $B0 `BCS rel` as one step (R273). -/
def execBcs (d : Byte) (s : State) : Result := complete (cyclesBcs d s)

/-- $BF `BBS3 zp,rel` (R278). -/
def cyclesBbs3 (zp rel : Byte) (s : State) : Action := bitBranchInstr 0xBF 3 true zp rel s
/-- $BF `BBS3 zp,rel` as one step (R278). -/
def execBbs3 (zp rel : Byte) (s : State) : Result := complete (cyclesBbs3 zp rel s)

/-- $CF `BBS4 zp,rel` (R278). -/
def cyclesBbs4 (zp rel : Byte) (s : State) : Action := bitBranchInstr 0xCF 4 true zp rel s
/-- $CF `BBS4 zp,rel` as one step (R278). -/
def execBbs4 (zp rel : Byte) (s : State) : Result := complete (cyclesBbs4 zp rel s)

/-- $D0 `BNE rel` (R274). -/
def cyclesBne (d : Byte) (s : State) : Action := branchInstr 0xD0 d (fun s => !s.p.z) s
/-- $D0 `BNE rel` as one step (R274). -/
def execBne (d : Byte) (s : State) : Result := complete (cyclesBne d s)

/-- $DF `BBS5 zp,rel` (R278). -/
def cyclesBbs5 (zp rel : Byte) (s : State) : Action := bitBranchInstr 0xDF 5 true zp rel s
/-- $DF `BBS5 zp,rel` as one step (R278). -/
def execBbs5 (zp rel : Byte) (s : State) : Result := complete (cyclesBbs5 zp rel s)

/-- $EF `BBS6 zp,rel` (R278). -/
def cyclesBbs6 (zp rel : Byte) (s : State) : Action := bitBranchInstr 0xEF 6 true zp rel s
/-- $EF `BBS6 zp,rel` as one step (R278). -/
def execBbs6 (zp rel : Byte) (s : State) : Result := complete (cyclesBbs6 zp rel s)

/-- $F0 `BEQ rel` (R275). -/
def cyclesBeq (d : Byte) (s : State) : Action := branchInstr 0xF0 d (fun s => s.p.z) s
/-- $F0 `BEQ rel` as one step (R275). -/
def execBeq (d : Byte) (s : State) : Result := complete (cyclesBeq d s)

/-- $FF `BBS7 zp,rel` (R278). -/
def cyclesBbs7 (zp rel : Byte) (s : State) : Action := bitBranchInstr 0xFF 7 true zp rel s
/-- $FF `BBS7 zp,rel` as one step (R278). -/
def execBbs7 (zp rel : Byte) (s : State) : Result := complete (cyclesBbs7 zp rel s)

end Sys2Proof.Machine
end

