-- ==== Sys2Proof/Machine/LoadStore.lean ====
section
/-! DEFINITION. Loads and stores (41_load_store.md, R150 to R158). For each opcode, `cycles…` is
its access sequence and `exec…` its meaning as one step. -/

namespace Sys2Proof.Machine

/-- $64 `STZ zp` (R158). -/
def cyclesStzZp (d : Byte) (s : State) : Action := storeInstr 0x64 (.zp d) (fun _ => 0) s
/-- $64 `STZ zp` as one step (R158). -/
def execStzZp (d : Byte) (s : State) : Result := complete (cyclesStzZp d s)

/-- $74 `STZ zp,X` (R158). -/
def cyclesStzZpx (d : Byte) (s : State) : Action := storeInstr 0x74 (.zpx d) (fun _ => 0) s
/-- $74 `STZ zp,X` as one step (R158). -/
def execStzZpx (d : Byte) (s : State) : Result := complete (cyclesStzZpx d s)

/-- $81 `STA (zp,X)` (R155). -/
def cyclesStaZpxi (d : Byte) (s : State) : Action := storeInstr 0x81 (.zpxi d) (·.a) s
/-- $81 `STA (zp,X)` as one step (R155). -/
def execStaZpxi (d : Byte) (s : State) : Result := complete (cyclesStaZpxi d s)

/-- $84 `STY zp` (R157). -/
def cyclesStyZp (d : Byte) (s : State) : Action := storeInstr 0x84 (.zp d) (·.y) s
/-- $84 `STY zp` as one step (R157). -/
def execStyZp (d : Byte) (s : State) : Result := complete (cyclesStyZp d s)

/-- $85 `STA zp` (R155). -/
def cyclesStaZp (d : Byte) (s : State) : Action := storeInstr 0x85 (.zp d) (·.a) s
/-- $85 `STA zp` as one step (R155). -/
def execStaZp (d : Byte) (s : State) : Result := complete (cyclesStaZp d s)

/-- $86 `STX zp` (R156). -/
def cyclesStxZp (d : Byte) (s : State) : Action := storeInstr 0x86 (.zp d) (·.x) s
/-- $86 `STX zp` as one step (R156). -/
def execStxZp (d : Byte) (s : State) : Result := complete (cyclesStxZp d s)

/-- $8C `STY abs` (R157). -/
def cyclesStyAbs (al ah : Byte) (s : State) : Action := storeInstr 0x8C (.abs al ah) (·.y) s
/-- $8C `STY abs` as one step (R157). -/
def execStyAbs (al ah : Byte) (s : State) : Result := complete (cyclesStyAbs al ah s)

/-- $8D `STA abs` (R155). -/
def cyclesStaAbs (al ah : Byte) (s : State) : Action := storeInstr 0x8D (.abs al ah) (·.a) s
/-- $8D `STA abs` as one step (R155). -/
def execStaAbs (al ah : Byte) (s : State) : Result := complete (cyclesStaAbs al ah s)

/-- $8E `STX abs` (R156). -/
def cyclesStxAbs (al ah : Byte) (s : State) : Action := storeInstr 0x8E (.abs al ah) (·.x) s
/-- $8E `STX abs` as one step (R156). -/
def execStxAbs (al ah : Byte) (s : State) : Result := complete (cyclesStxAbs al ah s)

/-- $91 `STA (zp),Y` (R155). -/
def cyclesStaZpiy (d : Byte) (s : State) : Action := storeInstr 0x91 (.zpiy d) (·.a) s
/-- $91 `STA (zp),Y` as one step (R155). -/
def execStaZpiy (d : Byte) (s : State) : Result := complete (cyclesStaZpiy d s)

/-- $92 `STA (zp)` (R155). -/
def cyclesStaZpi (d : Byte) (s : State) : Action := storeInstr 0x92 (.zpi d) (·.a) s
/-- $92 `STA (zp)` as one step (R155). -/
def execStaZpi (d : Byte) (s : State) : Result := complete (cyclesStaZpi d s)

/-- $94 `STY zp,X` (R157). -/
def cyclesStyZpx (d : Byte) (s : State) : Action := storeInstr 0x94 (.zpx d) (·.y) s
/-- $94 `STY zp,X` as one step (R157). -/
def execStyZpx (d : Byte) (s : State) : Result := complete (cyclesStyZpx d s)

/-- $95 `STA zp,X` (R155). -/
def cyclesStaZpx (d : Byte) (s : State) : Action := storeInstr 0x95 (.zpx d) (·.a) s
/-- $95 `STA zp,X` as one step (R155). -/
def execStaZpx (d : Byte) (s : State) : Result := complete (cyclesStaZpx d s)

/-- $96 `STX zp,Y` (R156). -/
def cyclesStxZpy (d : Byte) (s : State) : Action := storeInstr 0x96 (.zpy d) (·.x) s
/-- $96 `STX zp,Y` as one step (R156). -/
def execStxZpy (d : Byte) (s : State) : Result := complete (cyclesStxZpy d s)

/-- $99 `STA abs,Y` (R155). -/
def cyclesStaAbsy (al ah : Byte) (s : State) : Action := storeInstr 0x99 (.absy al ah) (·.a) s
/-- $99 `STA abs,Y` as one step (R155). -/
def execStaAbsy (al ah : Byte) (s : State) : Result := complete (cyclesStaAbsy al ah s)

/-- $9C `STZ abs` (R158). -/
def cyclesStzAbs (al ah : Byte) (s : State) : Action := storeInstr 0x9C (.abs al ah) (fun _ => 0) s
/-- $9C `STZ abs` as one step (R158). -/
def execStzAbs (al ah : Byte) (s : State) : Result := complete (cyclesStzAbs al ah s)

/-- $9D `STA abs,X` (R155). -/
def cyclesStaAbsx (al ah : Byte) (s : State) : Action := storeInstr 0x9D (.absx al ah) (·.a) s
/-- $9D `STA abs,X` as one step (R155). -/
def execStaAbsx (al ah : Byte) (s : State) : Result := complete (cyclesStaAbsx al ah s)

/-- $9E `STZ abs,X` (R158). -/
def cyclesStzAbsx (al ah : Byte) (s : State) : Action := storeInstr 0x9E (.absx al ah) (fun _ => 0) s
/-- $9E `STZ abs,X` as one step (R158). -/
def execStzAbsx (al ah : Byte) (s : State) : Result := complete (cyclesStzAbsx al ah s)

/-- $A0 `LDY #` (R154). -/
def cyclesLdyImm (d : Byte) (s : State) : Action := readInstr 0xA0 (.imm d) ldy s
/-- $A0 `LDY #` as one step (R154). -/
def execLdyImm (d : Byte) (s : State) : Result := complete (cyclesLdyImm d s)

/-- $A1 `LDA (zp,X)` (R152). -/
def cyclesLdaZpxi (d : Byte) (s : State) : Action := readInstr 0xA1 (.zpxi d) lda s
/-- $A1 `LDA (zp,X)` as one step (R152). -/
def execLdaZpxi (d : Byte) (s : State) : Result := complete (cyclesLdaZpxi d s)

/-- $A2 `LDX #` (R153). -/
def cyclesLdxImm (d : Byte) (s : State) : Action := readInstr 0xA2 (.imm d) ldx s
/-- $A2 `LDX #` as one step (R153). -/
def execLdxImm (d : Byte) (s : State) : Result := complete (cyclesLdxImm d s)

/-- $A4 `LDY zp` (R154). -/
def cyclesLdyZp (d : Byte) (s : State) : Action := readInstr 0xA4 (.zp d) ldy s
/-- $A4 `LDY zp` as one step (R154). -/
def execLdyZp (d : Byte) (s : State) : Result := complete (cyclesLdyZp d s)

/-- $A5 `LDA zp` (R152). -/
def cyclesLdaZp (d : Byte) (s : State) : Action := readInstr 0xA5 (.zp d) lda s
/-- $A5 `LDA zp` as one step (R152). -/
def execLdaZp (d : Byte) (s : State) : Result := complete (cyclesLdaZp d s)

/-- $A6 `LDX zp` (R153). -/
def cyclesLdxZp (d : Byte) (s : State) : Action := readInstr 0xA6 (.zp d) ldx s
/-- $A6 `LDX zp` as one step (R153). -/
def execLdxZp (d : Byte) (s : State) : Result := complete (cyclesLdxZp d s)

/-- $A9 `LDA #` (R152). -/
def cyclesLdaImm (d : Byte) (s : State) : Action := readInstr 0xA9 (.imm d) lda s
/-- $A9 `LDA #` as one step (R152). -/
def execLdaImm (d : Byte) (s : State) : Result := complete (cyclesLdaImm d s)

/-- $AC `LDY abs` (R154). -/
def cyclesLdyAbs (al ah : Byte) (s : State) : Action := readInstr 0xAC (.abs al ah) ldy s
/-- $AC `LDY abs` as one step (R154). -/
def execLdyAbs (al ah : Byte) (s : State) : Result := complete (cyclesLdyAbs al ah s)

/-- $AD `LDA abs` (R152). -/
def cyclesLdaAbs (al ah : Byte) (s : State) : Action := readInstr 0xAD (.abs al ah) lda s
/-- $AD `LDA abs` as one step (R152). -/
def execLdaAbs (al ah : Byte) (s : State) : Result := complete (cyclesLdaAbs al ah s)

/-- $AE `LDX abs` (R153). -/
def cyclesLdxAbs (al ah : Byte) (s : State) : Action := readInstr 0xAE (.abs al ah) ldx s
/-- $AE `LDX abs` as one step (R153). -/
def execLdxAbs (al ah : Byte) (s : State) : Result := complete (cyclesLdxAbs al ah s)

/-- $B1 `LDA (zp),Y` (R152). -/
def cyclesLdaZpiy (d : Byte) (s : State) : Action := readInstr 0xB1 (.zpiy d) lda s
/-- $B1 `LDA (zp),Y` as one step (R152). -/
def execLdaZpiy (d : Byte) (s : State) : Result := complete (cyclesLdaZpiy d s)

/-- $B2 `LDA (zp)` (R152). -/
def cyclesLdaZpi (d : Byte) (s : State) : Action := readInstr 0xB2 (.zpi d) lda s
/-- $B2 `LDA (zp)` as one step (R152). -/
def execLdaZpi (d : Byte) (s : State) : Result := complete (cyclesLdaZpi d s)

/-- $B4 `LDY zp,X` (R154). -/
def cyclesLdyZpx (d : Byte) (s : State) : Action := readInstr 0xB4 (.zpx d) ldy s
/-- $B4 `LDY zp,X` as one step (R154). -/
def execLdyZpx (d : Byte) (s : State) : Result := complete (cyclesLdyZpx d s)

/-- $B5 `LDA zp,X` (R152). -/
def cyclesLdaZpx (d : Byte) (s : State) : Action := readInstr 0xB5 (.zpx d) lda s
/-- $B5 `LDA zp,X` as one step (R152). -/
def execLdaZpx (d : Byte) (s : State) : Result := complete (cyclesLdaZpx d s)

/-- $B6 `LDX zp,Y` (R153). -/
def cyclesLdxZpy (d : Byte) (s : State) : Action := readInstr 0xB6 (.zpy d) ldx s
/-- $B6 `LDX zp,Y` as one step (R153). -/
def execLdxZpy (d : Byte) (s : State) : Result := complete (cyclesLdxZpy d s)

/-- $B9 `LDA abs,Y` (R152). -/
def cyclesLdaAbsy (al ah : Byte) (s : State) : Action := readInstr 0xB9 (.absy al ah) lda s
/-- $B9 `LDA abs,Y` as one step (R152). -/
def execLdaAbsy (al ah : Byte) (s : State) : Result := complete (cyclesLdaAbsy al ah s)

/-- $BC `LDY abs,X` (R154). -/
def cyclesLdyAbsx (al ah : Byte) (s : State) : Action := readInstr 0xBC (.absx al ah) ldy s
/-- $BC `LDY abs,X` as one step (R154). -/
def execLdyAbsx (al ah : Byte) (s : State) : Result := complete (cyclesLdyAbsx al ah s)

/-- $BD `LDA abs,X` (R152). -/
def cyclesLdaAbsx (al ah : Byte) (s : State) : Action := readInstr 0xBD (.absx al ah) lda s
/-- $BD `LDA abs,X` as one step (R152). -/
def execLdaAbsx (al ah : Byte) (s : State) : Result := complete (cyclesLdaAbsx al ah s)

/-- $BE `LDX abs,Y` (R153). -/
def cyclesLdxAbsy (al ah : Byte) (s : State) : Action := readInstr 0xBE (.absy al ah) ldx s
/-- $BE `LDX abs,Y` as one step (R153). -/
def execLdxAbsy (al ah : Byte) (s : State) : Result := complete (cyclesLdxAbsy al ah s)

end Sys2Proof.Machine
end

