-- ==== Sys2Proof/Machine/Rmw.lean ====
section
/-! DEFINITION. Shifts, rotates, increments, test-and-set and bit instructions (43_rmw_bit.md, R190 to R205). For each opcode, `cycles…` is
its access sequence and `exec…` its meaning as one step. -/

namespace Sys2Proof.Machine

/-- $04 `TSB zp` (R202). -/
def cyclesTsbZp (d : Byte) (s : State) : Action := rmwInstr 0x04 (.zp d) .rmwShift tsb s
/-- $04 `TSB zp` as one step (R202). -/
def execTsbZp (d : Byte) (s : State) : Result := complete (cyclesTsbZp d s)

/-- $06 `ASL zp` (R192). -/
def cyclesAslZp (d : Byte) (s : State) : Action := rmwInstr 0x06 (.zp d) .rmwShift asl s
/-- $06 `ASL zp` as one step (R192). -/
def execAslZp (d : Byte) (s : State) : Result := complete (cyclesAslZp d s)

/-- $07 `RMB0 zp` (R204). -/
def cyclesRmb0 (d : Byte) (s : State) : Action := rmwInstr 0x07 (.zp d) .rmwShift (rmb 0) s
/-- $07 `RMB0 zp` as one step (R204). -/
def execRmb0 (d : Byte) (s : State) : Result := complete (cyclesRmb0 d s)

/-- $0A `ASL A` (R192). -/
def cyclesAslAcc (s : State) : Action := impliedInstr 0x0A (modifyA asl) s
/-- $0A `ASL A` as one step (R192). -/
def execAslAcc (s : State) : Result := complete (cyclesAslAcc s)

/-- $0C `TSB abs` (R202). -/
def cyclesTsbAbs (al ah : Byte) (s : State) : Action := rmwInstr 0x0C (.abs al ah) .rmwShift tsb s
/-- $0C `TSB abs` as one step (R202). -/
def execTsbAbs (al ah : Byte) (s : State) : Result := complete (cyclesTsbAbs al ah s)

/-- $0E `ASL abs` (R192). -/
def cyclesAslAbs (al ah : Byte) (s : State) : Action := rmwInstr 0x0E (.abs al ah) .rmwShift asl s
/-- $0E `ASL abs` as one step (R192). -/
def execAslAbs (al ah : Byte) (s : State) : Result := complete (cyclesAslAbs al ah s)

/-- $14 `TRB zp` (R203). -/
def cyclesTrbZp (d : Byte) (s : State) : Action := rmwInstr 0x14 (.zp d) .rmwShift trb s
/-- $14 `TRB zp` as one step (R203). -/
def execTrbZp (d : Byte) (s : State) : Result := complete (cyclesTrbZp d s)

/-- $16 `ASL zp,X` (R192). -/
def cyclesAslZpx (d : Byte) (s : State) : Action := rmwInstr 0x16 (.zpx d) .rmwShift asl s
/-- $16 `ASL zp,X` as one step (R192). -/
def execAslZpx (d : Byte) (s : State) : Result := complete (cyclesAslZpx d s)

/-- $17 `RMB1 zp` (R204). -/
def cyclesRmb1 (d : Byte) (s : State) : Action := rmwInstr 0x17 (.zp d) .rmwShift (rmb 1) s
/-- $17 `RMB1 zp` as one step (R204). -/
def execRmb1 (d : Byte) (s : State) : Result := complete (cyclesRmb1 d s)

/-- $1A `INC A` (R196). -/
def cyclesIncAcc (s : State) : Action := impliedInstr 0x1A (modifyA incByte) s
/-- $1A `INC A` as one step (R196). -/
def execIncAcc (s : State) : Result := complete (cyclesIncAcc s)

/-- $1C `TRB abs` (R203). -/
def cyclesTrbAbs (al ah : Byte) (s : State) : Action := rmwInstr 0x1C (.abs al ah) .rmwShift trb s
/-- $1C `TRB abs` as one step (R203). -/
def execTrbAbs (al ah : Byte) (s : State) : Result := complete (cyclesTrbAbs al ah s)

/-- $1E `ASL abs,X` (R192). -/
def cyclesAslAbsx (al ah : Byte) (s : State) : Action := rmwInstr 0x1E (.absx al ah) .rmwShift asl s
/-- $1E `ASL abs,X` as one step (R192). -/
def execAslAbsx (al ah : Byte) (s : State) : Result := complete (cyclesAslAbsx al ah s)

/-- $26 `ROL zp` (R194). -/
def cyclesRolZp (d : Byte) (s : State) : Action := rmwInstr 0x26 (.zp d) .rmwShift rol s
/-- $26 `ROL zp` as one step (R194). -/
def execRolZp (d : Byte) (s : State) : Result := complete (cyclesRolZp d s)

/-- $27 `RMB2 zp` (R204). -/
def cyclesRmb2 (d : Byte) (s : State) : Action := rmwInstr 0x27 (.zp d) .rmwShift (rmb 2) s
/-- $27 `RMB2 zp` as one step (R204). -/
def execRmb2 (d : Byte) (s : State) : Result := complete (cyclesRmb2 d s)

/-- $2A `ROL A` (R194). -/
def cyclesRolAcc (s : State) : Action := impliedInstr 0x2A (modifyA rol) s
/-- $2A `ROL A` as one step (R194). -/
def execRolAcc (s : State) : Result := complete (cyclesRolAcc s)

/-- $2E `ROL abs` (R194). -/
def cyclesRolAbs (al ah : Byte) (s : State) : Action := rmwInstr 0x2E (.abs al ah) .rmwShift rol s
/-- $2E `ROL abs` as one step (R194). -/
def execRolAbs (al ah : Byte) (s : State) : Result := complete (cyclesRolAbs al ah s)

/-- $36 `ROL zp,X` (R194). -/
def cyclesRolZpx (d : Byte) (s : State) : Action := rmwInstr 0x36 (.zpx d) .rmwShift rol s
/-- $36 `ROL zp,X` as one step (R194). -/
def execRolZpx (d : Byte) (s : State) : Result := complete (cyclesRolZpx d s)

/-- $37 `RMB3 zp` (R204). -/
def cyclesRmb3 (d : Byte) (s : State) : Action := rmwInstr 0x37 (.zp d) .rmwShift (rmb 3) s
/-- $37 `RMB3 zp` as one step (R204). -/
def execRmb3 (d : Byte) (s : State) : Result := complete (cyclesRmb3 d s)

/-- $3A `DEC A` (R197). -/
def cyclesDecAcc (s : State) : Action := impliedInstr 0x3A (modifyA decByte) s
/-- $3A `DEC A` as one step (R197). -/
def execDecAcc (s : State) : Result := complete (cyclesDecAcc s)

/-- $3E `ROL abs,X` (R194). -/
def cyclesRolAbsx (al ah : Byte) (s : State) : Action := rmwInstr 0x3E (.absx al ah) .rmwShift rol s
/-- $3E `ROL abs,X` as one step (R194). -/
def execRolAbsx (al ah : Byte) (s : State) : Result := complete (cyclesRolAbsx al ah s)

/-- $46 `LSR zp` (R193). -/
def cyclesLsrZp (d : Byte) (s : State) : Action := rmwInstr 0x46 (.zp d) .rmwShift lsr s
/-- $46 `LSR zp` as one step (R193). -/
def execLsrZp (d : Byte) (s : State) : Result := complete (cyclesLsrZp d s)

/-- $47 `RMB4 zp` (R204). -/
def cyclesRmb4 (d : Byte) (s : State) : Action := rmwInstr 0x47 (.zp d) .rmwShift (rmb 4) s
/-- $47 `RMB4 zp` as one step (R204). -/
def execRmb4 (d : Byte) (s : State) : Result := complete (cyclesRmb4 d s)

/-- $4A `LSR A` (R193). -/
def cyclesLsrAcc (s : State) : Action := impliedInstr 0x4A (modifyA lsr) s
/-- $4A `LSR A` as one step (R193). -/
def execLsrAcc (s : State) : Result := complete (cyclesLsrAcc s)

/-- $4E `LSR abs` (R193). -/
def cyclesLsrAbs (al ah : Byte) (s : State) : Action := rmwInstr 0x4E (.abs al ah) .rmwShift lsr s
/-- $4E `LSR abs` as one step (R193). -/
def execLsrAbs (al ah : Byte) (s : State) : Result := complete (cyclesLsrAbs al ah s)

/-- $56 `LSR zp,X` (R193). -/
def cyclesLsrZpx (d : Byte) (s : State) : Action := rmwInstr 0x56 (.zpx d) .rmwShift lsr s
/-- $56 `LSR zp,X` as one step (R193). -/
def execLsrZpx (d : Byte) (s : State) : Result := complete (cyclesLsrZpx d s)

/-- $57 `RMB5 zp` (R204). -/
def cyclesRmb5 (d : Byte) (s : State) : Action := rmwInstr 0x57 (.zp d) .rmwShift (rmb 5) s
/-- $57 `RMB5 zp` as one step (R204). -/
def execRmb5 (d : Byte) (s : State) : Result := complete (cyclesRmb5 d s)

/-- $5E `LSR abs,X` (R193). -/
def cyclesLsrAbsx (al ah : Byte) (s : State) : Action := rmwInstr 0x5E (.absx al ah) .rmwShift lsr s
/-- $5E `LSR abs,X` as one step (R193). -/
def execLsrAbsx (al ah : Byte) (s : State) : Result := complete (cyclesLsrAbsx al ah s)

/-- $66 `ROR zp` (R195). -/
def cyclesRorZp (d : Byte) (s : State) : Action := rmwInstr 0x66 (.zp d) .rmwShift ror s
/-- $66 `ROR zp` as one step (R195). -/
def execRorZp (d : Byte) (s : State) : Result := complete (cyclesRorZp d s)

/-- $67 `RMB6 zp` (R204). -/
def cyclesRmb6 (d : Byte) (s : State) : Action := rmwInstr 0x67 (.zp d) .rmwShift (rmb 6) s
/-- $67 `RMB6 zp` as one step (R204). -/
def execRmb6 (d : Byte) (s : State) : Result := complete (cyclesRmb6 d s)

/-- $6A `ROR A` (R195). -/
def cyclesRorAcc (s : State) : Action := impliedInstr 0x6A (modifyA ror) s
/-- $6A `ROR A` as one step (R195). -/
def execRorAcc (s : State) : Result := complete (cyclesRorAcc s)

/-- $6E `ROR abs` (R195). -/
def cyclesRorAbs (al ah : Byte) (s : State) : Action := rmwInstr 0x6E (.abs al ah) .rmwShift ror s
/-- $6E `ROR abs` as one step (R195). -/
def execRorAbs (al ah : Byte) (s : State) : Result := complete (cyclesRorAbs al ah s)

/-- $76 `ROR zp,X` (R195). -/
def cyclesRorZpx (d : Byte) (s : State) : Action := rmwInstr 0x76 (.zpx d) .rmwShift ror s
/-- $76 `ROR zp,X` as one step (R195). -/
def execRorZpx (d : Byte) (s : State) : Result := complete (cyclesRorZpx d s)

/-- $77 `RMB7 zp` (R204). -/
def cyclesRmb7 (d : Byte) (s : State) : Action := rmwInstr 0x77 (.zp d) .rmwShift (rmb 7) s
/-- $77 `RMB7 zp` as one step (R204). -/
def execRmb7 (d : Byte) (s : State) : Result := complete (cyclesRmb7 d s)

/-- $7E `ROR abs,X` (R195). -/
def cyclesRorAbsx (al ah : Byte) (s : State) : Action := rmwInstr 0x7E (.absx al ah) .rmwShift ror s
/-- $7E `ROR abs,X` as one step (R195). -/
def execRorAbsx (al ah : Byte) (s : State) : Result := complete (cyclesRorAbsx al ah s)

/-- $87 `SMB0 zp` (R205). -/
def cyclesSmb0 (d : Byte) (s : State) : Action := rmwInstr 0x87 (.zp d) .rmwShift (smb 0) s
/-- $87 `SMB0 zp` as one step (R205). -/
def execSmb0 (d : Byte) (s : State) : Result := complete (cyclesSmb0 d s)

/-- $88 `DEY` (R201). -/
def cyclesDey (s : State) : Action := impliedInstr 0x88 (modifyY decByte) s
/-- $88 `DEY` as one step (R201). -/
def execDey (s : State) : Result := complete (cyclesDey s)

/-- $97 `SMB1 zp` (R205). -/
def cyclesSmb1 (d : Byte) (s : State) : Action := rmwInstr 0x97 (.zp d) .rmwShift (smb 1) s
/-- $97 `SMB1 zp` as one step (R205). -/
def execSmb1 (d : Byte) (s : State) : Result := complete (cyclesSmb1 d s)

/-- $A7 `SMB2 zp` (R205). -/
def cyclesSmb2 (d : Byte) (s : State) : Action := rmwInstr 0xA7 (.zp d) .rmwShift (smb 2) s
/-- $A7 `SMB2 zp` as one step (R205). -/
def execSmb2 (d : Byte) (s : State) : Result := complete (cyclesSmb2 d s)

/-- $B7 `SMB3 zp` (R205). -/
def cyclesSmb3 (d : Byte) (s : State) : Action := rmwInstr 0xB7 (.zp d) .rmwShift (smb 3) s
/-- $B7 `SMB3 zp` as one step (R205). -/
def execSmb3 (d : Byte) (s : State) : Result := complete (cyclesSmb3 d s)

/-- $C6 `DEC zp` (R197). -/
def cyclesDecZp (d : Byte) (s : State) : Action := rmwInstr 0xC6 (.zp d) .rmwIncDec decByte s
/-- $C6 `DEC zp` as one step (R197). -/
def execDecZp (d : Byte) (s : State) : Result := complete (cyclesDecZp d s)

/-- $C7 `SMB4 zp` (R205). -/
def cyclesSmb4 (d : Byte) (s : State) : Action := rmwInstr 0xC7 (.zp d) .rmwShift (smb 4) s
/-- $C7 `SMB4 zp` as one step (R205). -/
def execSmb4 (d : Byte) (s : State) : Result := complete (cyclesSmb4 d s)

/-- $C8 `INY` (R199). -/
def cyclesIny (s : State) : Action := impliedInstr 0xC8 (modifyY incByte) s
/-- $C8 `INY` as one step (R199). -/
def execIny (s : State) : Result := complete (cyclesIny s)

/-- $CA `DEX` (R200). -/
def cyclesDex (s : State) : Action := impliedInstr 0xCA (modifyX decByte) s
/-- $CA `DEX` as one step (R200). -/
def execDex (s : State) : Result := complete (cyclesDex s)

/-- $CE `DEC abs` (R197). -/
def cyclesDecAbs (al ah : Byte) (s : State) : Action := rmwInstr 0xCE (.abs al ah) .rmwIncDec decByte s
/-- $CE `DEC abs` as one step (R197). -/
def execDecAbs (al ah : Byte) (s : State) : Result := complete (cyclesDecAbs al ah s)

/-- $D6 `DEC zp,X` (R197). -/
def cyclesDecZpx (d : Byte) (s : State) : Action := rmwInstr 0xD6 (.zpx d) .rmwIncDec decByte s
/-- $D6 `DEC zp,X` as one step (R197). -/
def execDecZpx (d : Byte) (s : State) : Result := complete (cyclesDecZpx d s)

/-- $D7 `SMB5 zp` (R205). -/
def cyclesSmb5 (d : Byte) (s : State) : Action := rmwInstr 0xD7 (.zp d) .rmwShift (smb 5) s
/-- $D7 `SMB5 zp` as one step (R205). -/
def execSmb5 (d : Byte) (s : State) : Result := complete (cyclesSmb5 d s)

/-- $DE `DEC abs,X` (R197). -/
def cyclesDecAbsx (al ah : Byte) (s : State) : Action := rmwInstr 0xDE (.absx al ah) .rmwIncDec decByte s
/-- $DE `DEC abs,X` as one step (R197). -/
def execDecAbsx (al ah : Byte) (s : State) : Result := complete (cyclesDecAbsx al ah s)

/-- $E6 `INC zp` (R196). -/
def cyclesIncZp (d : Byte) (s : State) : Action := rmwInstr 0xE6 (.zp d) .rmwIncDec incByte s
/-- $E6 `INC zp` as one step (R196). -/
def execIncZp (d : Byte) (s : State) : Result := complete (cyclesIncZp d s)

/-- $E7 `SMB6 zp` (R205). -/
def cyclesSmb6 (d : Byte) (s : State) : Action := rmwInstr 0xE7 (.zp d) .rmwShift (smb 6) s
/-- $E7 `SMB6 zp` as one step (R205). -/
def execSmb6 (d : Byte) (s : State) : Result := complete (cyclesSmb6 d s)

/-- $E8 `INX` (R198). -/
def cyclesInx (s : State) : Action := impliedInstr 0xE8 (modifyX incByte) s
/-- $E8 `INX` as one step (R198). -/
def execInx (s : State) : Result := complete (cyclesInx s)

/-- $EE `INC abs` (R196). -/
def cyclesIncAbs (al ah : Byte) (s : State) : Action := rmwInstr 0xEE (.abs al ah) .rmwIncDec incByte s
/-- $EE `INC abs` as one step (R196). -/
def execIncAbs (al ah : Byte) (s : State) : Result := complete (cyclesIncAbs al ah s)

/-- $F6 `INC zp,X` (R196). -/
def cyclesIncZpx (d : Byte) (s : State) : Action := rmwInstr 0xF6 (.zpx d) .rmwIncDec incByte s
/-- $F6 `INC zp,X` as one step (R196). -/
def execIncZpx (d : Byte) (s : State) : Result := complete (cyclesIncZpx d s)

/-- $F7 `SMB7 zp` (R205). -/
def cyclesSmb7 (d : Byte) (s : State) : Action := rmwInstr 0xF7 (.zp d) .rmwShift (smb 7) s
/-- $F7 `SMB7 zp` as one step (R205). -/
def execSmb7 (d : Byte) (s : State) : Result := complete (cyclesSmb7 d s)

/-- $FE `INC abs,X` (R196). -/
def cyclesIncAbsx (al ah : Byte) (s : State) : Action := rmwInstr 0xFE (.absx al ah) .rmwIncDec incByte s
/-- $FE `INC abs,X` as one step (R196). -/
def execIncAbsx (al ah : Byte) (s : State) : Result := complete (cyclesIncAbsx al ah s)

end Sys2Proof.Machine
end

