-- ==== Sys2Proof/Machine/Stack.lean ====
section
/-! DEFINITION. Stack, transfer and flag instructions (44_stack_transfer_flag.md, R220 to R244). For each opcode, `cycles…` is
its access sequence and `exec…` its meaning as one step. -/

namespace Sys2Proof.Machine

/-- $08 `PHP` (R225). -/
def cyclesPhp (s : State) : Action :=
  start 0x08 s fun s =>
  idle s.pc s fun s =>
  pushStatus true s.sample finish
/-- $08 `PHP` as one step (R225). -/
def execPhp (s : State) : Result := complete (cyclesPhp s)

/-- $18 `CLC` (R238). -/
def cyclesClc (s : State) : Action := impliedInstr 0x18 (·.setC false) s
/-- $18 `CLC` as one step (R238). -/
def execClc (s : State) : Result := complete (cyclesClc s)

/-- $28 `PLP` (R229). -/
def cyclesPlp (s : State) : Action := pullInstr 0x28 (fun v s => s.setStatus v) s
/-- $28 `PLP` as one step (R229). -/
def execPlp (s : State) : Result := complete (cyclesPlp s)

/-- $38 `SEC` (R239). -/
def cyclesSec (s : State) : Action := impliedInstr 0x38 (·.setC true) s
/-- $38 `SEC` as one step (R239). -/
def execSec (s : State) : Result := complete (cyclesSec s)

/-- $48 `PHA` (R222). -/
def cyclesPha (s : State) : Action := pushInstr 0x48 (·.a) s
/-- $48 `PHA` as one step (R222). -/
def execPha (s : State) : Result := complete (cyclesPha s)

/-- $58 `CLI` (R240). -/
def cyclesCli (s : State) : Action := impliedInstr 0x58 (·.setI false) s
/-- $58 `CLI` as one step (R240). -/
def execCli (s : State) : Result := complete (cyclesCli s)

/-- $5A `PHY` (R224). -/
def cyclesPhy (s : State) : Action := pushInstr 0x5A (·.y) s
/-- $5A `PHY` as one step (R224). -/
def execPhy (s : State) : Result := complete (cyclesPhy s)

/-- $68 `PLA` (R226). -/
def cyclesPla (s : State) : Action := pullInstr 0x68 (fun v s => s.loadA v) s
/-- $68 `PLA` as one step (R226). -/
def execPla (s : State) : Result := complete (cyclesPla s)

/-- $78 `SEI` (R241). -/
def cyclesSei (s : State) : Action := impliedInstr 0x78 (·.setI true) s
/-- $78 `SEI` as one step (R241). -/
def execSei (s : State) : Result := complete (cyclesSei s)

/-- $7A `PLY` (R228). -/
def cyclesPly (s : State) : Action := pullInstr 0x7A (fun v s => s.loadY v) s
/-- $7A `PLY` as one step (R228). -/
def execPly (s : State) : Result := complete (cyclesPly s)

/-- $8A `TXA` (R233). -/
def cyclesTxa (s : State) : Action := impliedInstr 0x8A (fun s => s.loadA s.x) s
/-- $8A `TXA` as one step (R233). -/
def execTxa (s : State) : Result := complete (cyclesTxa s)

/-- $98 `TYA` (R234). -/
def cyclesTya (s : State) : Action := impliedInstr 0x98 (fun s => s.loadA s.y) s
/-- $98 `TYA` as one step (R234). -/
def execTya (s : State) : Result := complete (cyclesTya s)

/-- $9A `TXS` (R236). -/
def cyclesTxs (s : State) : Action := impliedInstr 0x9A (fun s => s.setSp s.x) s
/-- $9A `TXS` as one step (R236). -/
def execTxs (s : State) : Result := complete (cyclesTxs s)

/-- $A8 `TAY` (R232). -/
def cyclesTay (s : State) : Action := impliedInstr 0xA8 (fun s => s.loadY s.a) s
/-- $A8 `TAY` as one step (R232). -/
def execTay (s : State) : Result := complete (cyclesTay s)

/-- $AA `TAX` (R231). -/
def cyclesTax (s : State) : Action := impliedInstr 0xAA (fun s => s.loadX s.a) s
/-- $AA `TAX` as one step (R231). -/
def execTax (s : State) : Result := complete (cyclesTax s)

/-- $B8 `CLV` (R244). -/
def cyclesClv (s : State) : Action := impliedInstr 0xB8 (·.setV false) s
/-- $B8 `CLV` as one step (R244). -/
def execClv (s : State) : Result := complete (cyclesClv s)

/-- $BA `TSX` (R235). -/
def cyclesTsx (s : State) : Action := impliedInstr 0xBA (fun s => s.loadX s.sp) s
/-- $BA `TSX` as one step (R235). -/
def execTsx (s : State) : Result := complete (cyclesTsx s)

/-- $D8 `CLD` (R242). -/
def cyclesCld (s : State) : Action := impliedInstr 0xD8 (·.setD false) s
/-- $D8 `CLD` as one step (R242). -/
def execCld (s : State) : Result := complete (cyclesCld s)

/-- $DA `PHX` (R223). -/
def cyclesPhx (s : State) : Action := pushInstr 0xDA (·.x) s
/-- $DA `PHX` as one step (R223). -/
def execPhx (s : State) : Result := complete (cyclesPhx s)

/-- $F8 `SED` (R243). -/
def cyclesSed (s : State) : Action := impliedInstr 0xF8 (·.setD true) s
/-- $F8 `SED` as one step (R243). -/
def execSed (s : State) : Result := complete (cyclesSed s)

/-- $FA `PLX` (R227). -/
def cyclesPlx (s : State) : Action := pullInstr 0xFA (fun v s => s.loadX v) s
/-- $FA `PLX` as one step (R227). -/
def execPlx (s : State) : Result := complete (cyclesPlx s)

end Sys2Proof.Machine
end

