-- ==== Sys2Proof/Machine/System.lean ====
section
/-! DEFINITION. `NOP`, `WAI`, `STP` and the reserved opcodes (46_system_nop.md, R300 to R309). For each opcode, `cycles…` is
its access sequence and `exec…` its meaning as one step. -/

namespace Sys2Proof.Machine

/-- Whether `WAI` leaves the core running (R301): an unmasked interrupt is pending, or one was committed by
`WAI`'s own sample and is entered next (log entry 7). -/
def State.staysAwake (s : State) : Bool :=
  s.pendReset || s.pendNmi || (s.irqLine && s.irqMask) || s.committed != .none

/-- `exec_state <- STOPPED` (R302). A commit made by `STP`'s own sample could never be entered and is dropped,
which keeps the invariant of R37 (log entry 8). -/
def State.halt (s : State) : State := (s.setExec .stopped).setCommitted .none

/-- `stp_hook()` is called when it is installed (R302, R410). -/
def State.callStpHook (s : State) : State :=
  if s.hooks.stp then s.call .stpHook else s

/-- $02 `reserved NOP` (R304), by the immediate resolver, which the opcode table names (log entry 20). -/
def cyclesNop02 (d : Byte) (s : State) : Action := readInstr 0x02 (.imm d) ignore s
/-- $02 `reserved NOP` as one step (R304). -/
def execNop02 (d : Byte) (s : State) : Result := complete (cyclesNop02 d s)

/-- $03 `reserved NOP` (R303). -/
def cyclesNop03 (s : State) : Action := start 0x03 s finish
/-- $03 `reserved NOP` as one step (R303). -/
def execNop03 (s : State) : Result := complete (cyclesNop03 s)

/-- $0B `reserved NOP` (R303). -/
def cyclesNop0B (s : State) : Action := start 0x0B s finish
/-- $0B `reserved NOP` as one step (R303). -/
def execNop0B (s : State) : Result := complete (cyclesNop0B s)

/-- $13 `reserved NOP` (R303). -/
def cyclesNop13 (s : State) : Action := start 0x13 s finish
/-- $13 `reserved NOP` as one step (R303). -/
def execNop13 (s : State) : Result := complete (cyclesNop13 s)

/-- $1B `reserved NOP` (R303). -/
def cyclesNop1B (s : State) : Action := start 0x1B s finish
/-- $1B `reserved NOP` as one step (R303). -/
def execNop1B (s : State) : Result := complete (cyclesNop1B s)

/-- $22 `reserved NOP` (R304), by the immediate resolver, which the opcode table names (log entry 20). -/
def cyclesNop22 (d : Byte) (s : State) : Action := readInstr 0x22 (.imm d) ignore s
/-- $22 `reserved NOP` as one step (R304). -/
def execNop22 (d : Byte) (s : State) : Result := complete (cyclesNop22 d s)

/-- $23 `reserved NOP` (R303). -/
def cyclesNop23 (s : State) : Action := start 0x23 s finish
/-- $23 `reserved NOP` as one step (R303). -/
def execNop23 (s : State) : Result := complete (cyclesNop23 s)

/-- $2B `reserved NOP` (R303). -/
def cyclesNop2B (s : State) : Action := start 0x2B s finish
/-- $2B `reserved NOP` as one step (R303). -/
def execNop2B (s : State) : Result := complete (cyclesNop2B s)

/-- $33 `reserved NOP` (R303). -/
def cyclesNop33 (s : State) : Action := start 0x33 s finish
/-- $33 `reserved NOP` as one step (R303). -/
def execNop33 (s : State) : Result := complete (cyclesNop33 s)

/-- $3B `reserved NOP` (R303). -/
def cyclesNop3B (s : State) : Action := start 0x3B s finish
/-- $3B `reserved NOP` as one step (R303). -/
def execNop3B (s : State) : Result := complete (cyclesNop3B s)

/-- $42 `reserved NOP` (R304), by the immediate resolver, which the opcode table names (log entry 20). -/
def cyclesNop42 (d : Byte) (s : State) : Action := readInstr 0x42 (.imm d) ignore s
/-- $42 `reserved NOP` as one step (R304). -/
def execNop42 (d : Byte) (s : State) : Result := complete (cyclesNop42 d s)

/-- $43 `reserved NOP` (R303). -/
def cyclesNop43 (s : State) : Action := start 0x43 s finish
/-- $43 `reserved NOP` as one step (R303). -/
def execNop43 (s : State) : Result := complete (cyclesNop43 s)

/-- $44 `reserved NOP` (R305). -/
def cyclesNop44 (d : Byte) (s : State) : Action := readInstr 0x44 (.zp d) ignore s
/-- $44 `reserved NOP` as one step (R305). -/
def execNop44 (d : Byte) (s : State) : Result := complete (cyclesNop44 d s)

/-- $4B `reserved NOP` (R303). -/
def cyclesNop4B (s : State) : Action := start 0x4B s finish
/-- $4B `reserved NOP` as one step (R303). -/
def execNop4B (s : State) : Result := complete (cyclesNop4B s)

/-- $53 `reserved NOP` (R303). -/
def cyclesNop53 (s : State) : Action := start 0x53 s finish
/-- $53 `reserved NOP` as one step (R303). -/
def execNop53 (s : State) : Result := complete (cyclesNop53 s)

/-- $54 `reserved NOP` (R306). -/
def cyclesNop54 (d : Byte) (s : State) : Action := readInstr 0x54 (.zpx d) ignore s
/-- $54 `reserved NOP` as one step (R306). -/
def execNop54 (d : Byte) (s : State) : Result := complete (cyclesNop54 d s)

/-- $5B `reserved NOP` (R303). -/
def cyclesNop5B (s : State) : Action := start 0x5B s finish
/-- $5B `reserved NOP` as one step (R303). -/
def execNop5B (s : State) : Result := complete (cyclesNop5B s)

/-- $5C `reserved NOP` (R308). -/
def cyclesNop5C (al ah : Byte) (s : State) : Action :=
  start 0x5C s fun s =>
  .cycle (.fetch al) s fun al s =>
  .cycle (.fetch ah) s fun _ s =>
  idle (word 0xFF al) s fun s =>
  idle 0xFFFF s fun s =>
  idle 0xFFFF s fun s =>
  idle 0xFFFF s fun s =>
  last (.read 0xFFFF) s fun _ s =>
  finish s
/-- $5C `reserved NOP` as one step (R308). -/
def execNop5C (al ah : Byte) (s : State) : Result := complete (cyclesNop5C al ah s)

/-- $62 `reserved NOP` (R304), by the immediate resolver, which the opcode table names (log entry 20). -/
def cyclesNop62 (d : Byte) (s : State) : Action := readInstr 0x62 (.imm d) ignore s
/-- $62 `reserved NOP` as one step (R304). -/
def execNop62 (d : Byte) (s : State) : Result := complete (cyclesNop62 d s)

/-- $63 `reserved NOP` (R303). -/
def cyclesNop63 (s : State) : Action := start 0x63 s finish
/-- $63 `reserved NOP` as one step (R303). -/
def execNop63 (s : State) : Result := complete (cyclesNop63 s)

/-- $6B `reserved NOP` (R303). -/
def cyclesNop6B (s : State) : Action := start 0x6B s finish
/-- $6B `reserved NOP` as one step (R303). -/
def execNop6B (s : State) : Result := complete (cyclesNop6B s)

/-- $73 `reserved NOP` (R303). -/
def cyclesNop73 (s : State) : Action := start 0x73 s finish
/-- $73 `reserved NOP` as one step (R303). -/
def execNop73 (s : State) : Result := complete (cyclesNop73 s)

/-- $7B `reserved NOP` (R303). -/
def cyclesNop7B (s : State) : Action := start 0x7B s finish
/-- $7B `reserved NOP` as one step (R303). -/
def execNop7B (s : State) : Result := complete (cyclesNop7B s)

/-- $82 `reserved NOP` (R304), by the immediate resolver, which the opcode table names (log entry 20). -/
def cyclesNop82 (d : Byte) (s : State) : Action := readInstr 0x82 (.imm d) ignore s
/-- $82 `reserved NOP` as one step (R304). -/
def execNop82 (d : Byte) (s : State) : Result := complete (cyclesNop82 d s)

/-- $83 `reserved NOP` (R303). -/
def cyclesNop83 (s : State) : Action := start 0x83 s finish
/-- $83 `reserved NOP` as one step (R303). -/
def execNop83 (s : State) : Result := complete (cyclesNop83 s)

/-- $8B `reserved NOP` (R303). -/
def cyclesNop8B (s : State) : Action := start 0x8B s finish
/-- $8B `reserved NOP` as one step (R303). -/
def execNop8B (s : State) : Result := complete (cyclesNop8B s)

/-- $93 `reserved NOP` (R303). -/
def cyclesNop93 (s : State) : Action := start 0x93 s finish
/-- $93 `reserved NOP` as one step (R303). -/
def execNop93 (s : State) : Result := complete (cyclesNop93 s)

/-- $9B `reserved NOP` (R303). -/
def cyclesNop9B (s : State) : Action := start 0x9B s finish
/-- $9B `reserved NOP` as one step (R303). -/
def execNop9B (s : State) : Result := complete (cyclesNop9B s)

/-- $A3 `reserved NOP` (R303). -/
def cyclesNopA3 (s : State) : Action := start 0xA3 s finish
/-- $A3 `reserved NOP` as one step (R303). -/
def execNopA3 (s : State) : Result := complete (cyclesNopA3 s)

/-- $AB `reserved NOP` (R303). -/
def cyclesNopAB (s : State) : Action := start 0xAB s finish
/-- $AB `reserved NOP` as one step (R303). -/
def execNopAB (s : State) : Result := complete (cyclesNopAB s)

/-- $B3 `reserved NOP` (R303). -/
def cyclesNopB3 (s : State) : Action := start 0xB3 s finish
/-- $B3 `reserved NOP` as one step (R303). -/
def execNopB3 (s : State) : Result := complete (cyclesNopB3 s)

/-- $BB `reserved NOP` (R303). -/
def cyclesNopBB (s : State) : Action := start 0xBB s finish
/-- $BB `reserved NOP` as one step (R303). -/
def execNopBB (s : State) : Result := complete (cyclesNopBB s)

/-- $C2 `reserved NOP` (R304), by the immediate resolver, which the opcode table names (log entry 20). -/
def cyclesNopC2 (d : Byte) (s : State) : Action := readInstr 0xC2 (.imm d) ignore s
/-- $C2 `reserved NOP` as one step (R304). -/
def execNopC2 (d : Byte) (s : State) : Result := complete (cyclesNopC2 d s)

/-- $C3 `reserved NOP` (R303). -/
def cyclesNopC3 (s : State) : Action := start 0xC3 s finish
/-- $C3 `reserved NOP` as one step (R303). -/
def execNopC3 (s : State) : Result := complete (cyclesNopC3 s)

/-- $CB `WAI` (R301). -/
def cyclesWai (s : State) : Action :=
  start 0xCB s fun s =>
  idle s.pc s fun s =>
  last (.read s.pc) s fun _ s =>
  finish (if s.staysAwake then s else s.setExec .waiting)
/-- $CB `WAI` as one step (R301). -/
def execWai (s : State) : Result := complete (cyclesWai s)

/-- $D3 `reserved NOP` (R303). -/
def cyclesNopD3 (s : State) : Action := start 0xD3 s finish
/-- $D3 `reserved NOP` as one step (R303). -/
def execNopD3 (s : State) : Result := complete (cyclesNopD3 s)

/-- $D4 `reserved NOP` (R306). -/
def cyclesNopD4 (d : Byte) (s : State) : Action := readInstr 0xD4 (.zpx d) ignore s
/-- $D4 `reserved NOP` as one step (R306). -/
def execNopD4 (d : Byte) (s : State) : Result := complete (cyclesNopD4 d s)

/-- $DB `STP` (R302). -/
def cyclesStp (s : State) : Action :=
  start 0xDB s fun s =>
  idle s.pc s fun s =>
  last (.read s.pc) s fun _ s =>
  let suppressed := s.hooks.stp && s.hookAnswer
  let s := s.callStpHook
  finish (if suppressed then s else s.halt)
/-- $DB `STP` as one step (R302). -/
def execStp (s : State) : Result := complete (cyclesStp s)

/-- $DC `reserved NOP` (R307). -/
def cyclesNopDC (al ah : Byte) (s : State) : Action := readInstr 0xDC (.abs al ah) ignore s
/-- $DC `reserved NOP` as one step (R307). -/
def execNopDC (al ah : Byte) (s : State) : Result := complete (cyclesNopDC al ah s)

/-- $E2 `reserved NOP` (R304), by the immediate resolver, which the opcode table names (log entry 20). -/
def cyclesNopE2 (d : Byte) (s : State) : Action := readInstr 0xE2 (.imm d) ignore s
/-- $E2 `reserved NOP` as one step (R304). -/
def execNopE2 (d : Byte) (s : State) : Result := complete (cyclesNopE2 d s)

/-- $E3 `reserved NOP` (R303). -/
def cyclesNopE3 (s : State) : Action := start 0xE3 s finish
/-- $E3 `reserved NOP` as one step (R303). -/
def execNopE3 (s : State) : Result := complete (cyclesNopE3 s)

/-- $EA `NOP` (R300). -/
def cyclesNop (s : State) : Action := impliedInstr 0xEA (fun s => s) s
/-- $EA `NOP` as one step (R300). -/
def execNop (s : State) : Result := complete (cyclesNop s)

/-- $EB `reserved NOP` (R303). -/
def cyclesNopEB (s : State) : Action := start 0xEB s finish
/-- $EB `reserved NOP` as one step (R303). -/
def execNopEB (s : State) : Result := complete (cyclesNopEB s)

/-- $F3 `reserved NOP` (R303). -/
def cyclesNopF3 (s : State) : Action := start 0xF3 s finish
/-- $F3 `reserved NOP` as one step (R303). -/
def execNopF3 (s : State) : Result := complete (cyclesNopF3 s)

/-- $F4 `reserved NOP` (R306). -/
def cyclesNopF4 (d : Byte) (s : State) : Action := readInstr 0xF4 (.zpx d) ignore s
/-- $F4 `reserved NOP` as one step (R306). -/
def execNopF4 (d : Byte) (s : State) : Result := complete (cyclesNopF4 d s)

/-- $FB `reserved NOP` (R303). -/
def cyclesNopFB (s : State) : Action := start 0xFB s finish
/-- $FB `reserved NOP` as one step (R303). -/
def execNopFB (s : State) : Result := complete (cyclesNopFB s)

/-- $FC `reserved NOP` (R307). -/
def cyclesNopFC (al ah : Byte) (s : State) : Action := readInstr 0xFC (.abs al ah) ignore s
/-- $FC `reserved NOP` as one step (R307). -/
def execNopFC (al ah : Byte) (s : State) : Result := complete (cyclesNopFC al ah s)

end Sys2Proof.Machine
end

