-- ==== Sys2Proof/Syntax.lean ====
section
/-! DEFINITION. The instruction set: one constructor for each of the 256 opcodes (R90, R93, R96), with the
operand bytes of its format (R91): `d` an immediate, a zero-page address or a branch offset, `al ah` an
absolute operand low byte first, `zp rel` a zero-page address and a branch offset, `sig` the signature byte.
The opcodes with operand bytes come first, then those without, each in the order of the matrix. -/

namespace Sys2Proof

/-- An instruction: a row of the opcode matrix and its operand bytes. -/
inductive Instr where
  /-- $00 `BRK` (R266) -/
  | brk (sig : Byte)
  /-- $01 `ORA (zp,X)` (R177) -/
  | oraZpxi (d : Byte)
  /-- $02 `reserved NOP` (R304) -/
  | nop02 (d : Byte)
  /-- $04 `TSB zp` (R202) -/
  | tsbZp (d : Byte)
  /-- $05 `ORA zp` (R177) -/
  | oraZp (d : Byte)
  /-- $06 `ASL zp` (R192) -/
  | aslZp (d : Byte)
  /-- $07 `RMB0 zp` (R204) -/
  | rmb0 (d : Byte)
  /-- $09 `ORA #` (R177) -/
  | oraImm (d : Byte)
  /-- $0C `TSB abs` (R202) -/
  | tsbAbs (al ah : Byte)
  /-- $0D `ORA abs` (R177) -/
  | oraAbs (al ah : Byte)
  /-- $0E `ASL abs` (R192) -/
  | aslAbs (al ah : Byte)
  /-- $0F `BBR0 zp,rel` (R277) -/
  | bbr0 (zp rel : Byte)
  /-- $10 `BPL rel` (R268) -/
  | bpl (d : Byte)
  /-- $11 `ORA (zp),Y` (R177) -/
  | oraZpiy (d : Byte)
  /-- $12 `ORA (zp)` (R177) -/
  | oraZpi (d : Byte)
  /-- $14 `TRB zp` (R203) -/
  | trbZp (d : Byte)
  /-- $15 `ORA zp,X` (R177) -/
  | oraZpx (d : Byte)
  /-- $16 `ASL zp,X` (R192) -/
  | aslZpx (d : Byte)
  /-- $17 `RMB1 zp` (R204) -/
  | rmb1 (d : Byte)
  /-- $19 `ORA abs,Y` (R177) -/
  | oraAbsy (al ah : Byte)
  /-- $1C `TRB abs` (R203) -/
  | trbAbs (al ah : Byte)
  /-- $1D `ORA abs,X` (R177) -/
  | oraAbsx (al ah : Byte)
  /-- $1E `ASL abs,X` (R192) -/
  | aslAbsx (al ah : Byte)
  /-- $1F `BBR1 zp,rel` (R277) -/
  | bbr1 (zp rel : Byte)
  /-- $20 `JSR abs` (R263) -/
  | jsr (al ah : Byte)
  /-- $21 `AND (zp,X)` (R176) -/
  | andZpxi (d : Byte)
  /-- $22 `reserved NOP` (R304) -/
  | nop22 (d : Byte)
  /-- $24 `BIT zp` (R182) -/
  | bitZp (d : Byte)
  /-- $25 `AND zp` (R176) -/
  | andZp (d : Byte)
  /-- $26 `ROL zp` (R194) -/
  | rolZp (d : Byte)
  /-- $27 `RMB2 zp` (R204) -/
  | rmb2 (d : Byte)
  /-- $29 `AND #` (R176) -/
  | andImm (d : Byte)
  /-- $2C `BIT abs` (R182) -/
  | bitAbs (al ah : Byte)
  /-- $2D `AND abs` (R176) -/
  | andAbs (al ah : Byte)
  /-- $2E `ROL abs` (R194) -/
  | rolAbs (al ah : Byte)
  /-- $2F `BBR2 zp,rel` (R277) -/
  | bbr2 (zp rel : Byte)
  /-- $30 `BMI rel` (R269) -/
  | bmi (d : Byte)
  /-- $31 `AND (zp),Y` (R176) -/
  | andZpiy (d : Byte)
  /-- $32 `AND (zp)` (R176) -/
  | andZpi (d : Byte)
  /-- $34 `BIT zp,X` (R182) -/
  | bitZpx (d : Byte)
  /-- $35 `AND zp,X` (R176) -/
  | andZpx (d : Byte)
  /-- $36 `ROL zp,X` (R194) -/
  | rolZpx (d : Byte)
  /-- $37 `RMB3 zp` (R204) -/
  | rmb3 (d : Byte)
  /-- $39 `AND abs,Y` (R176) -/
  | andAbsy (al ah : Byte)
  /-- $3C `BIT abs,X` (R182) -/
  | bitAbsx (al ah : Byte)
  /-- $3D `AND abs,X` (R176) -/
  | andAbsx (al ah : Byte)
  /-- $3E `ROL abs,X` (R194) -/
  | rolAbsx (al ah : Byte)
  /-- $3F `BBR3 zp,rel` (R277) -/
  | bbr3 (zp rel : Byte)
  /-- $41 `EOR (zp,X)` (R178) -/
  | eorZpxi (d : Byte)
  /-- $42 `reserved NOP` (R304) -/
  | nop42 (d : Byte)
  /-- $44 `reserved NOP` (R305) -/
  | nop44 (d : Byte)
  /-- $45 `EOR zp` (R178) -/
  | eorZp (d : Byte)
  /-- $46 `LSR zp` (R193) -/
  | lsrZp (d : Byte)
  /-- $47 `RMB4 zp` (R204) -/
  | rmb4 (d : Byte)
  /-- $49 `EOR #` (R178) -/
  | eorImm (d : Byte)
  /-- $4C `JMP abs` (R260) -/
  | jmpAbs (al ah : Byte)
  /-- $4D `EOR abs` (R178) -/
  | eorAbs (al ah : Byte)
  /-- $4E `LSR abs` (R193) -/
  | lsrAbs (al ah : Byte)
  /-- $4F `BBR4 zp,rel` (R277) -/
  | bbr4 (zp rel : Byte)
  /-- $50 `BVC rel` (R270) -/
  | bvc (d : Byte)
  /-- $51 `EOR (zp),Y` (R178) -/
  | eorZpiy (d : Byte)
  /-- $52 `EOR (zp)` (R178) -/
  | eorZpi (d : Byte)
  /-- $54 `reserved NOP` (R306) -/
  | nop54 (d : Byte)
  /-- $55 `EOR zp,X` (R178) -/
  | eorZpx (d : Byte)
  /-- $56 `LSR zp,X` (R193) -/
  | lsrZpx (d : Byte)
  /-- $57 `RMB5 zp` (R204) -/
  | rmb5 (d : Byte)
  /-- $59 `EOR abs,Y` (R178) -/
  | eorAbsy (al ah : Byte)
  /-- $5C `reserved NOP` (R308) -/
  | nop5C (al ah : Byte)
  /-- $5D `EOR abs,X` (R178) -/
  | eorAbsx (al ah : Byte)
  /-- $5E `LSR abs,X` (R193) -/
  | lsrAbsx (al ah : Byte)
  /-- $5F `BBR5 zp,rel` (R277) -/
  | bbr5 (zp rel : Byte)
  /-- $61 `ADC (zp,X)` (R174) -/
  | adcZpxi (d : Byte)
  /-- $62 `reserved NOP` (R304) -/
  | nop62 (d : Byte)
  /-- $64 `STZ zp` (R158) -/
  | stzZp (d : Byte)
  /-- $65 `ADC zp` (R174) -/
  | adcZp (d : Byte)
  /-- $66 `ROR zp` (R195) -/
  | rorZp (d : Byte)
  /-- $67 `RMB6 zp` (R204) -/
  | rmb6 (d : Byte)
  /-- $69 `ADC #` (R174) -/
  | adcImm (d : Byte)
  /-- $6C `JMP (abs)` (R261) -/
  | jmpAbsi (al ah : Byte)
  /-- $6D `ADC abs` (R174) -/
  | adcAbs (al ah : Byte)
  /-- $6E `ROR abs` (R195) -/
  | rorAbs (al ah : Byte)
  /-- $6F `BBR6 zp,rel` (R277) -/
  | bbr6 (zp rel : Byte)
  /-- $70 `BVS rel` (R271) -/
  | bvs (d : Byte)
  /-- $71 `ADC (zp),Y` (R174) -/
  | adcZpiy (d : Byte)
  /-- $72 `ADC (zp)` (R174) -/
  | adcZpi (d : Byte)
  /-- $74 `STZ zp,X` (R158) -/
  | stzZpx (d : Byte)
  /-- $75 `ADC zp,X` (R174) -/
  | adcZpx (d : Byte)
  /-- $76 `ROR zp,X` (R195) -/
  | rorZpx (d : Byte)
  /-- $77 `RMB7 zp` (R204) -/
  | rmb7 (d : Byte)
  /-- $79 `ADC abs,Y` (R174) -/
  | adcAbsy (al ah : Byte)
  /-- $7C `JMP (abs,X)` (R262) -/
  | jmpAbsxi (al ah : Byte)
  /-- $7D `ADC abs,X` (R174) -/
  | adcAbsx (al ah : Byte)
  /-- $7E `ROR abs,X` (R195) -/
  | rorAbsx (al ah : Byte)
  /-- $7F `BBR7 zp,rel` (R277) -/
  | bbr7 (zp rel : Byte)
  /-- $80 `BRA rel` (R276) -/
  | bra (d : Byte)
  /-- $81 `STA (zp,X)` (R155) -/
  | staZpxi (d : Byte)
  /-- $82 `reserved NOP` (R304) -/
  | nop82 (d : Byte)
  /-- $84 `STY zp` (R157) -/
  | styZp (d : Byte)
  /-- $85 `STA zp` (R155) -/
  | staZp (d : Byte)
  /-- $86 `STX zp` (R156) -/
  | stxZp (d : Byte)
  /-- $87 `SMB0 zp` (R205) -/
  | smb0 (d : Byte)
  /-- $89 `BIT #` (R182) -/
  | bitImm (d : Byte)
  /-- $8C `STY abs` (R157) -/
  | styAbs (al ah : Byte)
  /-- $8D `STA abs` (R155) -/
  | staAbs (al ah : Byte)
  /-- $8E `STX abs` (R156) -/
  | stxAbs (al ah : Byte)
  /-- $8F `BBS0 zp,rel` (R278) -/
  | bbs0 (zp rel : Byte)
  /-- $90 `BCC rel` (R272) -/
  | bcc (d : Byte)
  /-- $91 `STA (zp),Y` (R155) -/
  | staZpiy (d : Byte)
  /-- $92 `STA (zp)` (R155) -/
  | staZpi (d : Byte)
  /-- $94 `STY zp,X` (R157) -/
  | styZpx (d : Byte)
  /-- $95 `STA zp,X` (R155) -/
  | staZpx (d : Byte)
  /-- $96 `STX zp,Y` (R156) -/
  | stxZpy (d : Byte)
  /-- $97 `SMB1 zp` (R205) -/
  | smb1 (d : Byte)
  /-- $99 `STA abs,Y` (R155) -/
  | staAbsy (al ah : Byte)
  /-- $9C `STZ abs` (R158) -/
  | stzAbs (al ah : Byte)
  /-- $9D `STA abs,X` (R155) -/
  | staAbsx (al ah : Byte)
  /-- $9E `STZ abs,X` (R158) -/
  | stzAbsx (al ah : Byte)
  /-- $9F `BBS1 zp,rel` (R278) -/
  | bbs1 (zp rel : Byte)
  /-- $A0 `LDY #` (R154) -/
  | ldyImm (d : Byte)
  /-- $A1 `LDA (zp,X)` (R152) -/
  | ldaZpxi (d : Byte)
  /-- $A2 `LDX #` (R153) -/
  | ldxImm (d : Byte)
  /-- $A4 `LDY zp` (R154) -/
  | ldyZp (d : Byte)
  /-- $A5 `LDA zp` (R152) -/
  | ldaZp (d : Byte)
  /-- $A6 `LDX zp` (R153) -/
  | ldxZp (d : Byte)
  /-- $A7 `SMB2 zp` (R205) -/
  | smb2 (d : Byte)
  /-- $A9 `LDA #` (R152) -/
  | ldaImm (d : Byte)
  /-- $AC `LDY abs` (R154) -/
  | ldyAbs (al ah : Byte)
  /-- $AD `LDA abs` (R152) -/
  | ldaAbs (al ah : Byte)
  /-- $AE `LDX abs` (R153) -/
  | ldxAbs (al ah : Byte)
  /-- $AF `BBS2 zp,rel` (R278) -/
  | bbs2 (zp rel : Byte)
  /-- $B0 `BCS rel` (R273) -/
  | bcs (d : Byte)
  /-- $B1 `LDA (zp),Y` (R152) -/
  | ldaZpiy (d : Byte)
  /-- $B2 `LDA (zp)` (R152) -/
  | ldaZpi (d : Byte)
  /-- $B4 `LDY zp,X` (R154) -/
  | ldyZpx (d : Byte)
  /-- $B5 `LDA zp,X` (R152) -/
  | ldaZpx (d : Byte)
  /-- $B6 `LDX zp,Y` (R153) -/
  | ldxZpy (d : Byte)
  /-- $B7 `SMB3 zp` (R205) -/
  | smb3 (d : Byte)
  /-- $B9 `LDA abs,Y` (R152) -/
  | ldaAbsy (al ah : Byte)
  /-- $BC `LDY abs,X` (R154) -/
  | ldyAbsx (al ah : Byte)
  /-- $BD `LDA abs,X` (R152) -/
  | ldaAbsx (al ah : Byte)
  /-- $BE `LDX abs,Y` (R153) -/
  | ldxAbsy (al ah : Byte)
  /-- $BF `BBS3 zp,rel` (R278) -/
  | bbs3 (zp rel : Byte)
  /-- $C0 `CPY #` (R181) -/
  | cpyImm (d : Byte)
  /-- $C1 `CMP (zp,X)` (R179) -/
  | cmpZpxi (d : Byte)
  /-- $C2 `reserved NOP` (R304) -/
  | nopC2 (d : Byte)
  /-- $C4 `CPY zp` (R181) -/
  | cpyZp (d : Byte)
  /-- $C5 `CMP zp` (R179) -/
  | cmpZp (d : Byte)
  /-- $C6 `DEC zp` (R197) -/
  | decZp (d : Byte)
  /-- $C7 `SMB4 zp` (R205) -/
  | smb4 (d : Byte)
  /-- $C9 `CMP #` (R179) -/
  | cmpImm (d : Byte)
  /-- $CC `CPY abs` (R181) -/
  | cpyAbs (al ah : Byte)
  /-- $CD `CMP abs` (R179) -/
  | cmpAbs (al ah : Byte)
  /-- $CE `DEC abs` (R197) -/
  | decAbs (al ah : Byte)
  /-- $CF `BBS4 zp,rel` (R278) -/
  | bbs4 (zp rel : Byte)
  /-- $D0 `BNE rel` (R274) -/
  | bne (d : Byte)
  /-- $D1 `CMP (zp),Y` (R179) -/
  | cmpZpiy (d : Byte)
  /-- $D2 `CMP (zp)` (R179) -/
  | cmpZpi (d : Byte)
  /-- $D4 `reserved NOP` (R306) -/
  | nopD4 (d : Byte)
  /-- $D5 `CMP zp,X` (R179) -/
  | cmpZpx (d : Byte)
  /-- $D6 `DEC zp,X` (R197) -/
  | decZpx (d : Byte)
  /-- $D7 `SMB5 zp` (R205) -/
  | smb5 (d : Byte)
  /-- $D9 `CMP abs,Y` (R179) -/
  | cmpAbsy (al ah : Byte)
  /-- $DC `reserved NOP` (R307) -/
  | nopDC (al ah : Byte)
  /-- $DD `CMP abs,X` (R179) -/
  | cmpAbsx (al ah : Byte)
  /-- $DE `DEC abs,X` (R197) -/
  | decAbsx (al ah : Byte)
  /-- $DF `BBS5 zp,rel` (R278) -/
  | bbs5 (zp rel : Byte)
  /-- $E0 `CPX #` (R180) -/
  | cpxImm (d : Byte)
  /-- $E1 `SBC (zp,X)` (R175) -/
  | sbcZpxi (d : Byte)
  /-- $E2 `reserved NOP` (R304) -/
  | nopE2 (d : Byte)
  /-- $E4 `CPX zp` (R180) -/
  | cpxZp (d : Byte)
  /-- $E5 `SBC zp` (R175) -/
  | sbcZp (d : Byte)
  /-- $E6 `INC zp` (R196) -/
  | incZp (d : Byte)
  /-- $E7 `SMB6 zp` (R205) -/
  | smb6 (d : Byte)
  /-- $E9 `SBC #` (R175) -/
  | sbcImm (d : Byte)
  /-- $EC `CPX abs` (R180) -/
  | cpxAbs (al ah : Byte)
  /-- $ED `SBC abs` (R175) -/
  | sbcAbs (al ah : Byte)
  /-- $EE `INC abs` (R196) -/
  | incAbs (al ah : Byte)
  /-- $EF `BBS6 zp,rel` (R278) -/
  | bbs6 (zp rel : Byte)
  /-- $F0 `BEQ rel` (R275) -/
  | beq (d : Byte)
  /-- $F1 `SBC (zp),Y` (R175) -/
  | sbcZpiy (d : Byte)
  /-- $F2 `SBC (zp)` (R175) -/
  | sbcZpi (d : Byte)
  /-- $F4 `reserved NOP` (R306) -/
  | nopF4 (d : Byte)
  /-- $F5 `SBC zp,X` (R175) -/
  | sbcZpx (d : Byte)
  /-- $F6 `INC zp,X` (R196) -/
  | incZpx (d : Byte)
  /-- $F7 `SMB7 zp` (R205) -/
  | smb7 (d : Byte)
  /-- $F9 `SBC abs,Y` (R175) -/
  | sbcAbsy (al ah : Byte)
  /-- $FC `reserved NOP` (R307) -/
  | nopFC (al ah : Byte)
  /-- $FD `SBC abs,X` (R175) -/
  | sbcAbsx (al ah : Byte)
  /-- $FE `INC abs,X` (R196) -/
  | incAbsx (al ah : Byte)
  /-- $FF `BBS7 zp,rel` (R278) -/
  | bbs7 (zp rel : Byte)
  /-- $03 `reserved NOP` (R303) -/
  | nop03
  /-- $08 `PHP` (R225) -/
  | php
  /-- $0A `ASL A` (R192) -/
  | aslAcc
  /-- $0B `reserved NOP` (R303) -/
  | nop0B
  /-- $13 `reserved NOP` (R303) -/
  | nop13
  /-- $18 `CLC` (R238) -/
  | clc
  /-- $1A `INC A` (R196) -/
  | incAcc
  /-- $1B `reserved NOP` (R303) -/
  | nop1B
  /-- $23 `reserved NOP` (R303) -/
  | nop23
  /-- $28 `PLP` (R229) -/
  | plp
  /-- $2A `ROL A` (R194) -/
  | rolAcc
  /-- $2B `reserved NOP` (R303) -/
  | nop2B
  /-- $33 `reserved NOP` (R303) -/
  | nop33
  /-- $38 `SEC` (R239) -/
  | sec
  /-- $3A `DEC A` (R197) -/
  | decAcc
  /-- $3B `reserved NOP` (R303) -/
  | nop3B
  /-- $40 `RTI` (R265) -/
  | rti
  /-- $43 `reserved NOP` (R303) -/
  | nop43
  /-- $48 `PHA` (R222) -/
  | pha
  /-- $4A `LSR A` (R193) -/
  | lsrAcc
  /-- $4B `reserved NOP` (R303) -/
  | nop4B
  /-- $53 `reserved NOP` (R303) -/
  | nop53
  /-- $58 `CLI` (R240) -/
  | cli
  /-- $5A `PHY` (R224) -/
  | phy
  /-- $5B `reserved NOP` (R303) -/
  | nop5B
  /-- $60 `RTS` (R264) -/
  | rts
  /-- $63 `reserved NOP` (R303) -/
  | nop63
  /-- $68 `PLA` (R226) -/
  | pla
  /-- $6A `ROR A` (R195) -/
  | rorAcc
  /-- $6B `reserved NOP` (R303) -/
  | nop6B
  /-- $73 `reserved NOP` (R303) -/
  | nop73
  /-- $78 `SEI` (R241) -/
  | sei
  /-- $7A `PLY` (R228) -/
  | ply
  /-- $7B `reserved NOP` (R303) -/
  | nop7B
  /-- $83 `reserved NOP` (R303) -/
  | nop83
  /-- $88 `DEY` (R201) -/
  | dey
  /-- $8A `TXA` (R233) -/
  | txa
  /-- $8B `reserved NOP` (R303) -/
  | nop8B
  /-- $93 `reserved NOP` (R303) -/
  | nop93
  /-- $98 `TYA` (R234) -/
  | tya
  /-- $9A `TXS` (R236) -/
  | txs
  /-- $9B `reserved NOP` (R303) -/
  | nop9B
  /-- $A3 `reserved NOP` (R303) -/
  | nopA3
  /-- $A8 `TAY` (R232) -/
  | tay
  /-- $AA `TAX` (R231) -/
  | tax
  /-- $AB `reserved NOP` (R303) -/
  | nopAB
  /-- $B3 `reserved NOP` (R303) -/
  | nopB3
  /-- $B8 `CLV` (R244) -/
  | clv
  /-- $BA `TSX` (R235) -/
  | tsx
  /-- $BB `reserved NOP` (R303) -/
  | nopBB
  /-- $C3 `reserved NOP` (R303) -/
  | nopC3
  /-- $C8 `INY` (R199) -/
  | iny
  /-- $CA `DEX` (R200) -/
  | dex
  /-- $CB `WAI` (R301) -/
  | wai
  /-- $D3 `reserved NOP` (R303) -/
  | nopD3
  /-- $D8 `CLD` (R242) -/
  | cld
  /-- $DA `PHX` (R223) -/
  | phx
  /-- $DB `STP` (R302) -/
  | stp
  /-- $E3 `reserved NOP` (R303) -/
  | nopE3
  /-- $E8 `INX` (R198) -/
  | inx
  /-- $EA `NOP` (R300) -/
  | nop
  /-- $EB `reserved NOP` (R303) -/
  | nopEB
  /-- $F3 `reserved NOP` (R303) -/
  | nopF3
  /-- $F8 `SED` (R243) -/
  | sed
  /-- $FA `PLX` (R227) -/
  | plx
  /-- $FB `reserved NOP` (R303) -/
  | nopFB
  deriving DecidableEq, Repr

end Sys2Proof
end

