-- ==== Sys2Proof/Machine/Dispatch.lean ====
section
/-! DEFINITION. One arm for each instruction. -/

namespace Sys2Proof.Machine

def exec (i : Instr) (s : State) : Host.Outcome State Fault Refusal :=
  match i with
  | .brk sig => Sys2Proof.Machine.execBrk sig s
  | .oraZpxi d => Sys2Proof.Machine.execOraZpxi d s
  | .nop02 d => Sys2Proof.Machine.execNop02 d s
  | .nop03 => Sys2Proof.Machine.execNop03 s
  | .tsbZp d => Sys2Proof.Machine.execTsbZp d s
  | .oraZp d => Sys2Proof.Machine.execOraZp d s
  | .aslZp d => Sys2Proof.Machine.execAslZp d s
  | .rmb0 d => Sys2Proof.Machine.execRmb0 d s
  | .php => Sys2Proof.Machine.execPhp s
  | .oraImm d => Sys2Proof.Machine.execOraImm d s
  | .aslAcc => Sys2Proof.Machine.execAslAcc s
  | .nop0B => Sys2Proof.Machine.execNop0B s
  | .tsbAbs al ah => Sys2Proof.Machine.execTsbAbs al ah s
  | .oraAbs al ah => Sys2Proof.Machine.execOraAbs al ah s
  | .aslAbs al ah => Sys2Proof.Machine.execAslAbs al ah s
  | .bbr0 zp rel => Sys2Proof.Machine.execBbr0 zp rel s
  | .bpl d => Sys2Proof.Machine.execBpl d s
  | .oraZpiy d => Sys2Proof.Machine.execOraZpiy d s
  | .oraZpi d => Sys2Proof.Machine.execOraZpi d s
  | .nop13 => Sys2Proof.Machine.execNop13 s
  | .trbZp d => Sys2Proof.Machine.execTrbZp d s
  | .oraZpx d => Sys2Proof.Machine.execOraZpx d s
  | .aslZpx d => Sys2Proof.Machine.execAslZpx d s
  | .rmb1 d => Sys2Proof.Machine.execRmb1 d s
  | .clc => Sys2Proof.Machine.execClc s
  | .oraAbsy al ah => Sys2Proof.Machine.execOraAbsy al ah s
  | .incAcc => Sys2Proof.Machine.execIncAcc s
  | .nop1B => Sys2Proof.Machine.execNop1B s
  | .trbAbs al ah => Sys2Proof.Machine.execTrbAbs al ah s
  | .oraAbsx al ah => Sys2Proof.Machine.execOraAbsx al ah s
  | .aslAbsx al ah => Sys2Proof.Machine.execAslAbsx al ah s
  | .bbr1 zp rel => Sys2Proof.Machine.execBbr1 zp rel s
  | .jsr al ah => Sys2Proof.Machine.execJsr al ah s
  | .andZpxi d => Sys2Proof.Machine.execAndZpxi d s
  | .nop22 d => Sys2Proof.Machine.execNop22 d s
  | .nop23 => Sys2Proof.Machine.execNop23 s
  | .bitZp d => Sys2Proof.Machine.execBitZp d s
  | .andZp d => Sys2Proof.Machine.execAndZp d s
  | .rolZp d => Sys2Proof.Machine.execRolZp d s
  | .rmb2 d => Sys2Proof.Machine.execRmb2 d s
  | .plp => Sys2Proof.Machine.execPlp s
  | .andImm d => Sys2Proof.Machine.execAndImm d s
  | .rolAcc => Sys2Proof.Machine.execRolAcc s
  | .nop2B => Sys2Proof.Machine.execNop2B s
  | .bitAbs al ah => Sys2Proof.Machine.execBitAbs al ah s
  | .andAbs al ah => Sys2Proof.Machine.execAndAbs al ah s
  | .rolAbs al ah => Sys2Proof.Machine.execRolAbs al ah s
  | .bbr2 zp rel => Sys2Proof.Machine.execBbr2 zp rel s
  | .bmi d => Sys2Proof.Machine.execBmi d s
  | .andZpiy d => Sys2Proof.Machine.execAndZpiy d s
  | .andZpi d => Sys2Proof.Machine.execAndZpi d s
  | .nop33 => Sys2Proof.Machine.execNop33 s
  | .bitZpx d => Sys2Proof.Machine.execBitZpx d s
  | .andZpx d => Sys2Proof.Machine.execAndZpx d s
  | .rolZpx d => Sys2Proof.Machine.execRolZpx d s
  | .rmb3 d => Sys2Proof.Machine.execRmb3 d s
  | .sec => Sys2Proof.Machine.execSec s
  | .andAbsy al ah => Sys2Proof.Machine.execAndAbsy al ah s
  | .decAcc => Sys2Proof.Machine.execDecAcc s
  | .nop3B => Sys2Proof.Machine.execNop3B s
  | .bitAbsx al ah => Sys2Proof.Machine.execBitAbsx al ah s
  | .andAbsx al ah => Sys2Proof.Machine.execAndAbsx al ah s
  | .rolAbsx al ah => Sys2Proof.Machine.execRolAbsx al ah s
  | .bbr3 zp rel => Sys2Proof.Machine.execBbr3 zp rel s
  | .rti => Sys2Proof.Machine.execRti s
  | .eorZpxi d => Sys2Proof.Machine.execEorZpxi d s
  | .nop42 d => Sys2Proof.Machine.execNop42 d s
  | .nop43 => Sys2Proof.Machine.execNop43 s
  | .nop44 d => Sys2Proof.Machine.execNop44 d s
  | .eorZp d => Sys2Proof.Machine.execEorZp d s
  | .lsrZp d => Sys2Proof.Machine.execLsrZp d s
  | .rmb4 d => Sys2Proof.Machine.execRmb4 d s
  | .pha => Sys2Proof.Machine.execPha s
  | .eorImm d => Sys2Proof.Machine.execEorImm d s
  | .lsrAcc => Sys2Proof.Machine.execLsrAcc s
  | .nop4B => Sys2Proof.Machine.execNop4B s
  | .jmpAbs al ah => Sys2Proof.Machine.execJmpAbs al ah s
  | .eorAbs al ah => Sys2Proof.Machine.execEorAbs al ah s
  | .lsrAbs al ah => Sys2Proof.Machine.execLsrAbs al ah s
  | .bbr4 zp rel => Sys2Proof.Machine.execBbr4 zp rel s
  | .bvc d => Sys2Proof.Machine.execBvc d s
  | .eorZpiy d => Sys2Proof.Machine.execEorZpiy d s
  | .eorZpi d => Sys2Proof.Machine.execEorZpi d s
  | .nop53 => Sys2Proof.Machine.execNop53 s
  | .nop54 d => Sys2Proof.Machine.execNop54 d s
  | .eorZpx d => Sys2Proof.Machine.execEorZpx d s
  | .lsrZpx d => Sys2Proof.Machine.execLsrZpx d s
  | .rmb5 d => Sys2Proof.Machine.execRmb5 d s
  | .cli => Sys2Proof.Machine.execCli s
  | .eorAbsy al ah => Sys2Proof.Machine.execEorAbsy al ah s
  | .phy => Sys2Proof.Machine.execPhy s
  | .nop5B => Sys2Proof.Machine.execNop5B s
  | .nop5C al ah => Sys2Proof.Machine.execNop5C al ah s
  | .eorAbsx al ah => Sys2Proof.Machine.execEorAbsx al ah s
  | .lsrAbsx al ah => Sys2Proof.Machine.execLsrAbsx al ah s
  | .bbr5 zp rel => Sys2Proof.Machine.execBbr5 zp rel s
  | .rts => Sys2Proof.Machine.execRts s
  | .adcZpxi d => Sys2Proof.Machine.execAdcZpxi d s
  | .nop62 d => Sys2Proof.Machine.execNop62 d s
  | .nop63 => Sys2Proof.Machine.execNop63 s
  | .stzZp d => Sys2Proof.Machine.execStzZp d s
  | .adcZp d => Sys2Proof.Machine.execAdcZp d s
  | .rorZp d => Sys2Proof.Machine.execRorZp d s
  | .rmb6 d => Sys2Proof.Machine.execRmb6 d s
  | .pla => Sys2Proof.Machine.execPla s
  | .adcImm d => Sys2Proof.Machine.execAdcImm d s
  | .rorAcc => Sys2Proof.Machine.execRorAcc s
  | .nop6B => Sys2Proof.Machine.execNop6B s
  | .jmpAbsi al ah => Sys2Proof.Machine.execJmpAbsi al ah s
  | .adcAbs al ah => Sys2Proof.Machine.execAdcAbs al ah s
  | .rorAbs al ah => Sys2Proof.Machine.execRorAbs al ah s
  | .bbr6 zp rel => Sys2Proof.Machine.execBbr6 zp rel s
  | .bvs d => Sys2Proof.Machine.execBvs d s
  | .adcZpiy d => Sys2Proof.Machine.execAdcZpiy d s
  | .adcZpi d => Sys2Proof.Machine.execAdcZpi d s
  | .nop73 => Sys2Proof.Machine.execNop73 s
  | .stzZpx d => Sys2Proof.Machine.execStzZpx d s
  | .adcZpx d => Sys2Proof.Machine.execAdcZpx d s
  | .rorZpx d => Sys2Proof.Machine.execRorZpx d s
  | .rmb7 d => Sys2Proof.Machine.execRmb7 d s
  | .sei => Sys2Proof.Machine.execSei s
  | .adcAbsy al ah => Sys2Proof.Machine.execAdcAbsy al ah s
  | .ply => Sys2Proof.Machine.execPly s
  | .nop7B => Sys2Proof.Machine.execNop7B s
  | .jmpAbsxi al ah => Sys2Proof.Machine.execJmpAbsxi al ah s
  | .adcAbsx al ah => Sys2Proof.Machine.execAdcAbsx al ah s
  | .rorAbsx al ah => Sys2Proof.Machine.execRorAbsx al ah s
  | .bbr7 zp rel => Sys2Proof.Machine.execBbr7 zp rel s
  | .bra d => Sys2Proof.Machine.execBra d s
  | .staZpxi d => Sys2Proof.Machine.execStaZpxi d s
  | .nop82 d => Sys2Proof.Machine.execNop82 d s
  | .nop83 => Sys2Proof.Machine.execNop83 s
  | .styZp d => Sys2Proof.Machine.execStyZp d s
  | .staZp d => Sys2Proof.Machine.execStaZp d s
  | .stxZp d => Sys2Proof.Machine.execStxZp d s
  | .smb0 d => Sys2Proof.Machine.execSmb0 d s
  | .dey => Sys2Proof.Machine.execDey s
  | .bitImm d => Sys2Proof.Machine.execBitImm d s
  | .txa => Sys2Proof.Machine.execTxa s
  | .nop8B => Sys2Proof.Machine.execNop8B s
  | .styAbs al ah => Sys2Proof.Machine.execStyAbs al ah s
  | .staAbs al ah => Sys2Proof.Machine.execStaAbs al ah s
  | .stxAbs al ah => Sys2Proof.Machine.execStxAbs al ah s
  | .bbs0 zp rel => Sys2Proof.Machine.execBbs0 zp rel s
  | .bcc d => Sys2Proof.Machine.execBcc d s
  | .staZpiy d => Sys2Proof.Machine.execStaZpiy d s
  | .staZpi d => Sys2Proof.Machine.execStaZpi d s
  | .nop93 => Sys2Proof.Machine.execNop93 s
  | .styZpx d => Sys2Proof.Machine.execStyZpx d s
  | .staZpx d => Sys2Proof.Machine.execStaZpx d s
  | .stxZpy d => Sys2Proof.Machine.execStxZpy d s
  | .smb1 d => Sys2Proof.Machine.execSmb1 d s
  | .tya => Sys2Proof.Machine.execTya s
  | .staAbsy al ah => Sys2Proof.Machine.execStaAbsy al ah s
  | .txs => Sys2Proof.Machine.execTxs s
  | .nop9B => Sys2Proof.Machine.execNop9B s
  | .stzAbs al ah => Sys2Proof.Machine.execStzAbs al ah s
  | .staAbsx al ah => Sys2Proof.Machine.execStaAbsx al ah s
  | .stzAbsx al ah => Sys2Proof.Machine.execStzAbsx al ah s
  | .bbs1 zp rel => Sys2Proof.Machine.execBbs1 zp rel s
  | .ldyImm d => Sys2Proof.Machine.execLdyImm d s
  | .ldaZpxi d => Sys2Proof.Machine.execLdaZpxi d s
  | .ldxImm d => Sys2Proof.Machine.execLdxImm d s
  | .nopA3 => Sys2Proof.Machine.execNopA3 s
  | .ldyZp d => Sys2Proof.Machine.execLdyZp d s
  | .ldaZp d => Sys2Proof.Machine.execLdaZp d s
  | .ldxZp d => Sys2Proof.Machine.execLdxZp d s
  | .smb2 d => Sys2Proof.Machine.execSmb2 d s
  | .tay => Sys2Proof.Machine.execTay s
  | .ldaImm d => Sys2Proof.Machine.execLdaImm d s
  | .tax => Sys2Proof.Machine.execTax s
  | .nopAB => Sys2Proof.Machine.execNopAB s
  | .ldyAbs al ah => Sys2Proof.Machine.execLdyAbs al ah s
  | .ldaAbs al ah => Sys2Proof.Machine.execLdaAbs al ah s
  | .ldxAbs al ah => Sys2Proof.Machine.execLdxAbs al ah s
  | .bbs2 zp rel => Sys2Proof.Machine.execBbs2 zp rel s
  | .bcs d => Sys2Proof.Machine.execBcs d s
  | .ldaZpiy d => Sys2Proof.Machine.execLdaZpiy d s
  | .ldaZpi d => Sys2Proof.Machine.execLdaZpi d s
  | .nopB3 => Sys2Proof.Machine.execNopB3 s
  | .ldyZpx d => Sys2Proof.Machine.execLdyZpx d s
  | .ldaZpx d => Sys2Proof.Machine.execLdaZpx d s
  | .ldxZpy d => Sys2Proof.Machine.execLdxZpy d s
  | .smb3 d => Sys2Proof.Machine.execSmb3 d s
  | .clv => Sys2Proof.Machine.execClv s
  | .ldaAbsy al ah => Sys2Proof.Machine.execLdaAbsy al ah s
  | .tsx => Sys2Proof.Machine.execTsx s
  | .nopBB => Sys2Proof.Machine.execNopBB s
  | .ldyAbsx al ah => Sys2Proof.Machine.execLdyAbsx al ah s
  | .ldaAbsx al ah => Sys2Proof.Machine.execLdaAbsx al ah s
  | .ldxAbsy al ah => Sys2Proof.Machine.execLdxAbsy al ah s
  | .bbs3 zp rel => Sys2Proof.Machine.execBbs3 zp rel s
  | .cpyImm d => Sys2Proof.Machine.execCpyImm d s
  | .cmpZpxi d => Sys2Proof.Machine.execCmpZpxi d s
  | .nopC2 d => Sys2Proof.Machine.execNopC2 d s
  | .nopC3 => Sys2Proof.Machine.execNopC3 s
  | .cpyZp d => Sys2Proof.Machine.execCpyZp d s
  | .cmpZp d => Sys2Proof.Machine.execCmpZp d s
  | .decZp d => Sys2Proof.Machine.execDecZp d s
  | .smb4 d => Sys2Proof.Machine.execSmb4 d s
  | .iny => Sys2Proof.Machine.execIny s
  | .cmpImm d => Sys2Proof.Machine.execCmpImm d s
  | .dex => Sys2Proof.Machine.execDex s
  | .wai => Sys2Proof.Machine.execWai s
  | .cpyAbs al ah => Sys2Proof.Machine.execCpyAbs al ah s
  | .cmpAbs al ah => Sys2Proof.Machine.execCmpAbs al ah s
  | .decAbs al ah => Sys2Proof.Machine.execDecAbs al ah s
  | .bbs4 zp rel => Sys2Proof.Machine.execBbs4 zp rel s
  | .bne d => Sys2Proof.Machine.execBne d s
  | .cmpZpiy d => Sys2Proof.Machine.execCmpZpiy d s
  | .cmpZpi d => Sys2Proof.Machine.execCmpZpi d s
  | .nopD3 => Sys2Proof.Machine.execNopD3 s
  | .nopD4 d => Sys2Proof.Machine.execNopD4 d s
  | .cmpZpx d => Sys2Proof.Machine.execCmpZpx d s
  | .decZpx d => Sys2Proof.Machine.execDecZpx d s
  | .smb5 d => Sys2Proof.Machine.execSmb5 d s
  | .cld => Sys2Proof.Machine.execCld s
  | .cmpAbsy al ah => Sys2Proof.Machine.execCmpAbsy al ah s
  | .phx => Sys2Proof.Machine.execPhx s
  | .stp => Sys2Proof.Machine.execStp s
  | .nopDC al ah => Sys2Proof.Machine.execNopDC al ah s
  | .cmpAbsx al ah => Sys2Proof.Machine.execCmpAbsx al ah s
  | .decAbsx al ah => Sys2Proof.Machine.execDecAbsx al ah s
  | .bbs5 zp rel => Sys2Proof.Machine.execBbs5 zp rel s
  | .cpxImm d => Sys2Proof.Machine.execCpxImm d s
  | .sbcZpxi d => Sys2Proof.Machine.execSbcZpxi d s
  | .nopE2 d => Sys2Proof.Machine.execNopE2 d s
  | .nopE3 => Sys2Proof.Machine.execNopE3 s
  | .cpxZp d => Sys2Proof.Machine.execCpxZp d s
  | .sbcZp d => Sys2Proof.Machine.execSbcZp d s
  | .incZp d => Sys2Proof.Machine.execIncZp d s
  | .smb6 d => Sys2Proof.Machine.execSmb6 d s
  | .inx => Sys2Proof.Machine.execInx s
  | .sbcImm d => Sys2Proof.Machine.execSbcImm d s
  | .nop => Sys2Proof.Machine.execNop s
  | .nopEB => Sys2Proof.Machine.execNopEB s
  | .cpxAbs al ah => Sys2Proof.Machine.execCpxAbs al ah s
  | .sbcAbs al ah => Sys2Proof.Machine.execSbcAbs al ah s
  | .incAbs al ah => Sys2Proof.Machine.execIncAbs al ah s
  | .bbs6 zp rel => Sys2Proof.Machine.execBbs6 zp rel s
  | .beq d => Sys2Proof.Machine.execBeq d s
  | .sbcZpiy d => Sys2Proof.Machine.execSbcZpiy d s
  | .sbcZpi d => Sys2Proof.Machine.execSbcZpi d s
  | .nopF3 => Sys2Proof.Machine.execNopF3 s
  | .nopF4 d => Sys2Proof.Machine.execNopF4 d s
  | .sbcZpx d => Sys2Proof.Machine.execSbcZpx d s
  | .incZpx d => Sys2Proof.Machine.execIncZpx d s
  | .smb7 d => Sys2Proof.Machine.execSmb7 d s
  | .sed => Sys2Proof.Machine.execSed s
  | .sbcAbsy al ah => Sys2Proof.Machine.execSbcAbsy al ah s
  | .plx => Sys2Proof.Machine.execPlx s
  | .nopFB => Sys2Proof.Machine.execNopFB s
  | .nopFC al ah => Sys2Proof.Machine.execNopFC al ah s
  | .sbcAbsx al ah => Sys2Proof.Machine.execSbcAbsx al ah s
  | .incAbsx al ah => Sys2Proof.Machine.execIncAbsx al ah s
  | .bbs7 zp rel => Sys2Proof.Machine.execBbs7 zp rel s

end Sys2Proof.Machine
end

