-- ==== Sys2Proof/WellFormed.lean ====
section
/-! DEFINITION. What makes bytes an instruction: a first byte and exactly the operand bytes its opcode calls
for (R90, R91, R97). -/

namespace Sys2Proof

/-- How many operand bytes an opcode takes, from its column and row of the matrix (R91, R93, R97). -/
def operandCount (opcode : Byte) : Nat :=
  let hi := opcode.toNat / 16
  match opcode.toNat % 16 with
  | 0x0 => if hi = 0x2 then 2 else if hi = 0x4 || hi = 0x6 then 0 else 1
  | 0x1 | 0x2 | 0x4 | 0x5 | 0x6 | 0x7 => 1
  | 0x3 | 0x8 | 0xA | 0xB => 0
  | 0x9 => hi % 2 + 1
  | _ => 2

/-- The bytes are one whole instruction. -/
def wellFormedBytes : List Byte → Bool
  | [] => false
  | opcode :: operands => operands.length == operandCount opcode

/-- An instruction as a term is well formed: nothing is left to check, because every value of every operand
byte is legal (R61, R66, R92, U12) and the bit number is part of the constructor (R95). -/
def Instr.wellFormed (_ : Instr) : Bool := true

end Sys2Proof
end

