-- ==== Sys2Proof/Decode.lean ====
section
/-! DEFINITION. The opcode matrix, the decoder and the encoder (R90 to R97). -/

namespace Sys2Proof

/-- An entry of the opcode matrix: an instruction and the operand bytes it still takes (R91, R97). -/
inductive Form where
  | none (i : Instr)
  | one (f : Byte → Instr)
  | two (f : Byte → Byte → Instr)

/-- Row 0x of the matrix (R93). -/
def matrixRow0 : Vector Form 16 := #v[
  .one .brk, .one .oraZpxi, .one .nop02, .none .nop03,
  .one .tsbZp, .one .oraZp, .one .aslZp, .one .rmb0,
  .none .php, .one .oraImm, .none .aslAcc, .none .nop0B,
  .two .tsbAbs, .two .oraAbs, .two .aslAbs, .two .bbr0]

/-- Row 1x of the matrix (R93). -/
def matrixRow1 : Vector Form 16 := #v[
  .one .bpl, .one .oraZpiy, .one .oraZpi, .none .nop13,
  .one .trbZp, .one .oraZpx, .one .aslZpx, .one .rmb1,
  .none .clc, .two .oraAbsy, .none .incAcc, .none .nop1B,
  .two .trbAbs, .two .oraAbsx, .two .aslAbsx, .two .bbr1]

/-- Row 2x of the matrix (R93). -/
def matrixRow2 : Vector Form 16 := #v[
  .two .jsr, .one .andZpxi, .one .nop22, .none .nop23,
  .one .bitZp, .one .andZp, .one .rolZp, .one .rmb2,
  .none .plp, .one .andImm, .none .rolAcc, .none .nop2B,
  .two .bitAbs, .two .andAbs, .two .rolAbs, .two .bbr2]

/-- Row 3x of the matrix (R93). -/
def matrixRow3 : Vector Form 16 := #v[
  .one .bmi, .one .andZpiy, .one .andZpi, .none .nop33,
  .one .bitZpx, .one .andZpx, .one .rolZpx, .one .rmb3,
  .none .sec, .two .andAbsy, .none .decAcc, .none .nop3B,
  .two .bitAbsx, .two .andAbsx, .two .rolAbsx, .two .bbr3]

/-- Row 4x of the matrix (R93). -/
def matrixRow4 : Vector Form 16 := #v[
  .none .rti, .one .eorZpxi, .one .nop42, .none .nop43,
  .one .nop44, .one .eorZp, .one .lsrZp, .one .rmb4,
  .none .pha, .one .eorImm, .none .lsrAcc, .none .nop4B,
  .two .jmpAbs, .two .eorAbs, .two .lsrAbs, .two .bbr4]

/-- Row 5x of the matrix (R93). -/
def matrixRow5 : Vector Form 16 := #v[
  .one .bvc, .one .eorZpiy, .one .eorZpi, .none .nop53,
  .one .nop54, .one .eorZpx, .one .lsrZpx, .one .rmb5,
  .none .cli, .two .eorAbsy, .none .phy, .none .nop5B,
  .two .nop5C, .two .eorAbsx, .two .lsrAbsx, .two .bbr5]

/-- Row 6x of the matrix (R93). -/
def matrixRow6 : Vector Form 16 := #v[
  .none .rts, .one .adcZpxi, .one .nop62, .none .nop63,
  .one .stzZp, .one .adcZp, .one .rorZp, .one .rmb6,
  .none .pla, .one .adcImm, .none .rorAcc, .none .nop6B,
  .two .jmpAbsi, .two .adcAbs, .two .rorAbs, .two .bbr6]

/-- Row 7x of the matrix (R93). -/
def matrixRow7 : Vector Form 16 := #v[
  .one .bvs, .one .adcZpiy, .one .adcZpi, .none .nop73,
  .one .stzZpx, .one .adcZpx, .one .rorZpx, .one .rmb7,
  .none .sei, .two .adcAbsy, .none .ply, .none .nop7B,
  .two .jmpAbsxi, .two .adcAbsx, .two .rorAbsx, .two .bbr7]

/-- Row 8x of the matrix (R93). -/
def matrixRow8 : Vector Form 16 := #v[
  .one .bra, .one .staZpxi, .one .nop82, .none .nop83,
  .one .styZp, .one .staZp, .one .stxZp, .one .smb0,
  .none .dey, .one .bitImm, .none .txa, .none .nop8B,
  .two .styAbs, .two .staAbs, .two .stxAbs, .two .bbs0]

/-- Row 9x of the matrix (R93). -/
def matrixRow9 : Vector Form 16 := #v[
  .one .bcc, .one .staZpiy, .one .staZpi, .none .nop93,
  .one .styZpx, .one .staZpx, .one .stxZpy, .one .smb1,
  .none .tya, .two .staAbsy, .none .txs, .none .nop9B,
  .two .stzAbs, .two .staAbsx, .two .stzAbsx, .two .bbs1]

/-- Row Ax of the matrix (R93). -/
def matrixRowA : Vector Form 16 := #v[
  .one .ldyImm, .one .ldaZpxi, .one .ldxImm, .none .nopA3,
  .one .ldyZp, .one .ldaZp, .one .ldxZp, .one .smb2,
  .none .tay, .one .ldaImm, .none .tax, .none .nopAB,
  .two .ldyAbs, .two .ldaAbs, .two .ldxAbs, .two .bbs2]

/-- Row Bx of the matrix (R93). -/
def matrixRowB : Vector Form 16 := #v[
  .one .bcs, .one .ldaZpiy, .one .ldaZpi, .none .nopB3,
  .one .ldyZpx, .one .ldaZpx, .one .ldxZpy, .one .smb3,
  .none .clv, .two .ldaAbsy, .none .tsx, .none .nopBB,
  .two .ldyAbsx, .two .ldaAbsx, .two .ldxAbsy, .two .bbs3]

/-- Row Cx of the matrix (R93). -/
def matrixRowC : Vector Form 16 := #v[
  .one .cpyImm, .one .cmpZpxi, .one .nopC2, .none .nopC3,
  .one .cpyZp, .one .cmpZp, .one .decZp, .one .smb4,
  .none .iny, .one .cmpImm, .none .dex, .none .wai,
  .two .cpyAbs, .two .cmpAbs, .two .decAbs, .two .bbs4]

/-- Row Dx of the matrix (R93). -/
def matrixRowD : Vector Form 16 := #v[
  .one .bne, .one .cmpZpiy, .one .cmpZpi, .none .nopD3,
  .one .nopD4, .one .cmpZpx, .one .decZpx, .one .smb5,
  .none .cld, .two .cmpAbsy, .none .phx, .none .stp,
  .two .nopDC, .two .cmpAbsx, .two .decAbsx, .two .bbs5]

/-- Row Ex of the matrix (R93). -/
def matrixRowE : Vector Form 16 := #v[
  .one .cpxImm, .one .sbcZpxi, .one .nopE2, .none .nopE3,
  .one .cpxZp, .one .sbcZp, .one .incZp, .one .smb6,
  .none .inx, .one .sbcImm, .none .nop, .none .nopEB,
  .two .cpxAbs, .two .sbcAbs, .two .incAbs, .two .bbs6]

/-- Row Fx of the matrix (R93). -/
def matrixRowF : Vector Form 16 := #v[
  .one .beq, .one .sbcZpiy, .one .sbcZpi, .none .nopF3,
  .one .nopF4, .one .sbcZpx, .one .incZpx, .one .smb7,
  .none .sed, .two .sbcAbsy, .none .plx, .none .nopFB,
  .two .nopFC, .two .sbcAbsx, .two .incAbsx, .two .bbs7]

/-- The opcode matrix (R93): rows by high nibble, columns by low nibble. -/
def opcodeMatrix : Vector (Vector Form 16) 16 := #v[
  matrixRow0, matrixRow1, matrixRow2, matrixRow3, matrixRow4, matrixRow5, matrixRow6, matrixRow7,
  matrixRow8, matrixRow9, matrixRowA, matrixRowB, matrixRowC, matrixRowD, matrixRowE, matrixRowF]

/-- The row an opcode byte selects; every byte has one (R93, R96, R100). -/
def opcodeForm (opcode : Byte) : Form :=
  (opcodeMatrix.get (opcode.extractLsb' 4 4).toFin).get (opcode.extractLsb' 0 4).toFin

/-- Why bytes do not decode. No opcode is illegal (R96): only missing bytes are refused. -/
inductive DecodeError where
  /-- there is no opcode byte -/
  | noOpcode
  /-- the opcode's operand bytes are not all there -/
  | missingOperand (opcode : Byte)
  deriving DecidableEq, Repr

/-- Take the operand bytes a form calls for. -/
def Form.takeOperands (opcode : Byte) : Form → List Byte → Except DecodeError (Instr × List Byte)
  | .none i, rest => .ok (i, rest)
  | .one f, d :: rest => .ok (f d, rest)
  | .two f, d :: e :: rest => .ok (f d e, rest)
  | _, _ => .error (.missingOperand opcode)

/-- Decode one instruction from the front of a byte sequence, and what is left of it. -/
def decode : List Byte → Except DecodeError (Instr × List Byte)
  | [] => .error .noOpcode
  | opcode :: rest => (opcodeForm opcode).takeOperands opcode rest

/-- The bytes of an instruction, lowest address first (R91, R92, R93). -/
def encode : Instr → List Byte
  | .brk sig => [0x00, sig]
  | .oraZpxi d => [0x01, d]
  | .nop02 d => [0x02, d]
  | .nop03 => [0x03]
  | .tsbZp d => [0x04, d]
  | .oraZp d => [0x05, d]
  | .aslZp d => [0x06, d]
  | .rmb0 d => [0x07, d]
  | .php => [0x08]
  | .oraImm d => [0x09, d]
  | .aslAcc => [0x0A]
  | .nop0B => [0x0B]
  | .tsbAbs al ah => [0x0C, al, ah]
  | .oraAbs al ah => [0x0D, al, ah]
  | .aslAbs al ah => [0x0E, al, ah]
  | .bbr0 zp rel => [0x0F, zp, rel]
  | .bpl d => [0x10, d]
  | .oraZpiy d => [0x11, d]
  | .oraZpi d => [0x12, d]
  | .nop13 => [0x13]
  | .trbZp d => [0x14, d]
  | .oraZpx d => [0x15, d]
  | .aslZpx d => [0x16, d]
  | .rmb1 d => [0x17, d]
  | .clc => [0x18]
  | .oraAbsy al ah => [0x19, al, ah]
  | .incAcc => [0x1A]
  | .nop1B => [0x1B]
  | .trbAbs al ah => [0x1C, al, ah]
  | .oraAbsx al ah => [0x1D, al, ah]
  | .aslAbsx al ah => [0x1E, al, ah]
  | .bbr1 zp rel => [0x1F, zp, rel]
  | .jsr al ah => [0x20, al, ah]
  | .andZpxi d => [0x21, d]
  | .nop22 d => [0x22, d]
  | .nop23 => [0x23]
  | .bitZp d => [0x24, d]
  | .andZp d => [0x25, d]
  | .rolZp d => [0x26, d]
  | .rmb2 d => [0x27, d]
  | .plp => [0x28]
  | .andImm d => [0x29, d]
  | .rolAcc => [0x2A]
  | .nop2B => [0x2B]
  | .bitAbs al ah => [0x2C, al, ah]
  | .andAbs al ah => [0x2D, al, ah]
  | .rolAbs al ah => [0x2E, al, ah]
  | .bbr2 zp rel => [0x2F, zp, rel]
  | .bmi d => [0x30, d]
  | .andZpiy d => [0x31, d]
  | .andZpi d => [0x32, d]
  | .nop33 => [0x33]
  | .bitZpx d => [0x34, d]
  | .andZpx d => [0x35, d]
  | .rolZpx d => [0x36, d]
  | .rmb3 d => [0x37, d]
  | .sec => [0x38]
  | .andAbsy al ah => [0x39, al, ah]
  | .decAcc => [0x3A]
  | .nop3B => [0x3B]
  | .bitAbsx al ah => [0x3C, al, ah]
  | .andAbsx al ah => [0x3D, al, ah]
  | .rolAbsx al ah => [0x3E, al, ah]
  | .bbr3 zp rel => [0x3F, zp, rel]
  | .rti => [0x40]
  | .eorZpxi d => [0x41, d]
  | .nop42 d => [0x42, d]
  | .nop43 => [0x43]
  | .nop44 d => [0x44, d]
  | .eorZp d => [0x45, d]
  | .lsrZp d => [0x46, d]
  | .rmb4 d => [0x47, d]
  | .pha => [0x48]
  | .eorImm d => [0x49, d]
  | .lsrAcc => [0x4A]
  | .nop4B => [0x4B]
  | .jmpAbs al ah => [0x4C, al, ah]
  | .eorAbs al ah => [0x4D, al, ah]
  | .lsrAbs al ah => [0x4E, al, ah]
  | .bbr4 zp rel => [0x4F, zp, rel]
  | .bvc d => [0x50, d]
  | .eorZpiy d => [0x51, d]
  | .eorZpi d => [0x52, d]
  | .nop53 => [0x53]
  | .nop54 d => [0x54, d]
  | .eorZpx d => [0x55, d]
  | .lsrZpx d => [0x56, d]
  | .rmb5 d => [0x57, d]
  | .cli => [0x58]
  | .eorAbsy al ah => [0x59, al, ah]
  | .phy => [0x5A]
  | .nop5B => [0x5B]
  | .nop5C al ah => [0x5C, al, ah]
  | .eorAbsx al ah => [0x5D, al, ah]
  | .lsrAbsx al ah => [0x5E, al, ah]
  | .bbr5 zp rel => [0x5F, zp, rel]
  | .rts => [0x60]
  | .adcZpxi d => [0x61, d]
  | .nop62 d => [0x62, d]
  | .nop63 => [0x63]
  | .stzZp d => [0x64, d]
  | .adcZp d => [0x65, d]
  | .rorZp d => [0x66, d]
  | .rmb6 d => [0x67, d]
  | .pla => [0x68]
  | .adcImm d => [0x69, d]
  | .rorAcc => [0x6A]
  | .nop6B => [0x6B]
  | .jmpAbsi al ah => [0x6C, al, ah]
  | .adcAbs al ah => [0x6D, al, ah]
  | .rorAbs al ah => [0x6E, al, ah]
  | .bbr6 zp rel => [0x6F, zp, rel]
  | .bvs d => [0x70, d]
  | .adcZpiy d => [0x71, d]
  | .adcZpi d => [0x72, d]
  | .nop73 => [0x73]
  | .stzZpx d => [0x74, d]
  | .adcZpx d => [0x75, d]
  | .rorZpx d => [0x76, d]
  | .rmb7 d => [0x77, d]
  | .sei => [0x78]
  | .adcAbsy al ah => [0x79, al, ah]
  | .ply => [0x7A]
  | .nop7B => [0x7B]
  | .jmpAbsxi al ah => [0x7C, al, ah]
  | .adcAbsx al ah => [0x7D, al, ah]
  | .rorAbsx al ah => [0x7E, al, ah]
  | .bbr7 zp rel => [0x7F, zp, rel]
  | .bra d => [0x80, d]
  | .staZpxi d => [0x81, d]
  | .nop82 d => [0x82, d]
  | .nop83 => [0x83]
  | .styZp d => [0x84, d]
  | .staZp d => [0x85, d]
  | .stxZp d => [0x86, d]
  | .smb0 d => [0x87, d]
  | .dey => [0x88]
  | .bitImm d => [0x89, d]
  | .txa => [0x8A]
  | .nop8B => [0x8B]
  | .styAbs al ah => [0x8C, al, ah]
  | .staAbs al ah => [0x8D, al, ah]
  | .stxAbs al ah => [0x8E, al, ah]
  | .bbs0 zp rel => [0x8F, zp, rel]
  | .bcc d => [0x90, d]
  | .staZpiy d => [0x91, d]
  | .staZpi d => [0x92, d]
  | .nop93 => [0x93]
  | .styZpx d => [0x94, d]
  | .staZpx d => [0x95, d]
  | .stxZpy d => [0x96, d]
  | .smb1 d => [0x97, d]
  | .tya => [0x98]
  | .staAbsy al ah => [0x99, al, ah]
  | .txs => [0x9A]
  | .nop9B => [0x9B]
  | .stzAbs al ah => [0x9C, al, ah]
  | .staAbsx al ah => [0x9D, al, ah]
  | .stzAbsx al ah => [0x9E, al, ah]
  | .bbs1 zp rel => [0x9F, zp, rel]
  | .ldyImm d => [0xA0, d]
  | .ldaZpxi d => [0xA1, d]
  | .ldxImm d => [0xA2, d]
  | .nopA3 => [0xA3]
  | .ldyZp d => [0xA4, d]
  | .ldaZp d => [0xA5, d]
  | .ldxZp d => [0xA6, d]
  | .smb2 d => [0xA7, d]
  | .tay => [0xA8]
  | .ldaImm d => [0xA9, d]
  | .tax => [0xAA]
  | .nopAB => [0xAB]
  | .ldyAbs al ah => [0xAC, al, ah]
  | .ldaAbs al ah => [0xAD, al, ah]
  | .ldxAbs al ah => [0xAE, al, ah]
  | .bbs2 zp rel => [0xAF, zp, rel]
  | .bcs d => [0xB0, d]
  | .ldaZpiy d => [0xB1, d]
  | .ldaZpi d => [0xB2, d]
  | .nopB3 => [0xB3]
  | .ldyZpx d => [0xB4, d]
  | .ldaZpx d => [0xB5, d]
  | .ldxZpy d => [0xB6, d]
  | .smb3 d => [0xB7, d]
  | .clv => [0xB8]
  | .ldaAbsy al ah => [0xB9, al, ah]
  | .tsx => [0xBA]
  | .nopBB => [0xBB]
  | .ldyAbsx al ah => [0xBC, al, ah]
  | .ldaAbsx al ah => [0xBD, al, ah]
  | .ldxAbsy al ah => [0xBE, al, ah]
  | .bbs3 zp rel => [0xBF, zp, rel]
  | .cpyImm d => [0xC0, d]
  | .cmpZpxi d => [0xC1, d]
  | .nopC2 d => [0xC2, d]
  | .nopC3 => [0xC3]
  | .cpyZp d => [0xC4, d]
  | .cmpZp d => [0xC5, d]
  | .decZp d => [0xC6, d]
  | .smb4 d => [0xC7, d]
  | .iny => [0xC8]
  | .cmpImm d => [0xC9, d]
  | .dex => [0xCA]
  | .wai => [0xCB]
  | .cpyAbs al ah => [0xCC, al, ah]
  | .cmpAbs al ah => [0xCD, al, ah]
  | .decAbs al ah => [0xCE, al, ah]
  | .bbs4 zp rel => [0xCF, zp, rel]
  | .bne d => [0xD0, d]
  | .cmpZpiy d => [0xD1, d]
  | .cmpZpi d => [0xD2, d]
  | .nopD3 => [0xD3]
  | .nopD4 d => [0xD4, d]
  | .cmpZpx d => [0xD5, d]
  | .decZpx d => [0xD6, d]
  | .smb5 d => [0xD7, d]
  | .cld => [0xD8]
  | .cmpAbsy al ah => [0xD9, al, ah]
  | .phx => [0xDA]
  | .stp => [0xDB]
  | .nopDC al ah => [0xDC, al, ah]
  | .cmpAbsx al ah => [0xDD, al, ah]
  | .decAbsx al ah => [0xDE, al, ah]
  | .bbs5 zp rel => [0xDF, zp, rel]
  | .cpxImm d => [0xE0, d]
  | .sbcZpxi d => [0xE1, d]
  | .nopE2 d => [0xE2, d]
  | .nopE3 => [0xE3]
  | .cpxZp d => [0xE4, d]
  | .sbcZp d => [0xE5, d]
  | .incZp d => [0xE6, d]
  | .smb6 d => [0xE7, d]
  | .inx => [0xE8]
  | .sbcImm d => [0xE9, d]
  | .nop => [0xEA]
  | .nopEB => [0xEB]
  | .cpxAbs al ah => [0xEC, al, ah]
  | .sbcAbs al ah => [0xED, al, ah]
  | .incAbs al ah => [0xEE, al, ah]
  | .bbs6 zp rel => [0xEF, zp, rel]
  | .beq d => [0xF0, d]
  | .sbcZpiy d => [0xF1, d]
  | .sbcZpi d => [0xF2, d]
  | .nopF3 => [0xF3]
  | .nopF4 d => [0xF4, d]
  | .sbcZpx d => [0xF5, d]
  | .incZpx d => [0xF6, d]
  | .smb7 d => [0xF7, d]
  | .sed => [0xF8]
  | .sbcAbsy al ah => [0xF9, al, ah]
  | .plx => [0xFA]
  | .nopFB => [0xFB]
  | .nopFC al ah => [0xFC, al, ah]
  | .sbcAbsx al ah => [0xFD, al, ah]
  | .incAbsx al ah => [0xFE, al, ah]
  | .bbs7 zp rel => [0xFF, zp, rel]

/-- The number of bytes of an instruction (R90). -/
def Instr.length (i : Instr) : Nat := (encode i).length

/-- The lowest `nbits` bits of `w`. -/
def lowBits (nbits w : Nat) : Nat := w % 2 ^ nbits

/-- The three bytes, lowest address first, that a table word of `nbits` bits lays out; what the table gives no
bits is 0. -/
def tableBytes (nbits w : Nat) : List Byte :=
  [BitVec.ofNat 8 (lowBits nbits w), BitVec.ofNat 8 (lowBits nbits w / 256), BitVec.ofNat 8 (lowBits nbits w / 65536)]

/-- The instruction the decoder reads from a table word. -/
def decodeTableWord (nbits w : Nat) : Option Instr :=
  match decode (tableBytes nbits w) with
  | .ok (i, _) => some i
  | .error _ => none

end Sys2Proof
end

