-- ==== Sys2Proof/Machine/Fetch.lean ====
section
/-! DEFINITION. The bytes an instruction is decoded from, and what happens next at a boundary (R100, R334). -/

namespace Sys2Proof.Machine

/-- Memory after an act of the host (R63, R67). -/
def HostAct.applyMem (m : Memory) : HostAct → Memory
  | .poke a v => m.write a.toNat v
  | _ => m

/-- Memory as the host will have left it after the next `n` cycles, if the core writes nothing in them (R63). -/
def State.memAfter (s : State) : Nat → Memory
  | 0 => s.mem
  | n + 1 => (s.actsAt (.cycle (s.cycleCount + (n + 1)))).foldl HostAct.applyMem (s.memAfter n)

/-- How many cycles of an instruction come before the fetch of its third byte (R127, R137): the bit branches
read and idle first. `JSR` reads its third byte itself (R138). -/
def cyclesBeforeThirdByte (opcode : Byte) : Nat := if opcode.toNat % 16 = 0xF then 4 else 2

/-- The bytes at the program counter (R24, R66): the opcode as the host answers its fetch, and the two bytes
after it as they will stand in memory when the core fetches them (log entry 4). -/
def State.fetchBytes (s : State) : List Byte :=
  let opcode := s.hostAnswer (s.mem.read s.pc.toNat)
  [opcode, (s.memAfter 1).read (s.pc + 1).toNat, (s.memAfter (cyclesBeforeThirdByte opcode)).read (s.pc + 2).toNat]

/-- Memory with bytes stored at consecutive addresses, wrapping at `$FFFF` (R66). -/
def storeBytes : Memory → Word → List Byte → Memory
  | m, _, [] => m
  | m, a, b :: rest => storeBytes (m.write a.toNat b) (a + 1) rest

/-- A state whose next boundary action is the instruction at the program counter (R334 line 7), answered by
memory. -/
def State.readyToFetch (s : State) : State :=
  { s with
    pendReset := false, resetSeen := true, stall := 0, execState := .running, committed := .none, script := [] }

/-- The next boundary action (R334), or the refusal of a run before any RESET (R371, U8). -/
inductive Choice where
  | refuse
  | stall
  | reset
  | stopped
  | waiting
  | enter (e : Entry)
  | instruction
  deriving DecidableEq, Repr

/-- R334, the first line that applies. -/
def choose (s : State) : Choice :=
  if !s.resetSeen && !s.pendReset then .refuse
  else if s.stall > 0 then .stall
  else if s.pendReset then .reset
  else match s.execState with
    | .stopped => .stopped
    | .waiting => .waiting
    | .running => match s.committed with
      | .nmi => .enter .nmi
      | .irq => .enter .irq
      | .none => .instruction

end Sys2Proof.Machine
end

