-- ==== Sys2Proof/Machine/Step.lean ====
section
/-! DEFINITION. One step of the machine is one boundary action (R334, R401). -/

namespace Sys2Proof.Machine

/-- The instruction at the program counter (R334 line 7, R100). -/
def stepInstr (s : State) : Host.Outcome State Fault Refusal :=
  match decode s.fetchBytes with
  | .ok (i, _) => exec i s
  | .error _ => .refused .undecodable

/-- Perform one boundary action (R334, R414). -/
def step (s : State) : Host.Outcome State Fault Refusal :=
  match choose s with
  | .refuse => .refused .runBeforeReset
  | .stall => complete (stallCycle s)
  | .reset => complete (resetSequence s)
  | .stopped => complete (stoppedCycle s)
  | .waiting => complete (waitingCycle s)
  | .enter e => complete (enter e s)
  | .instruction => stepInstr s

/-- The state with a table word's bytes at the program counter, about to fetch them. -/
def State.withFetchWord (s : State) (nbits w : Nat) : State :=
  s.readyToFetch.setMem (storeBytes s.mem s.pc (tableBytes nbits w))

end Sys2Proof.Machine
end

