-- ==== Sys2Proof/Machine/CyclesOf.lean ====
section
/-! DEFINITION. The access sequence of every instruction, as the action that `exec` performs in one step and
that a host may also perform cycle by cycle (R35, R401). -/

namespace Sys2Proof.Machine

/-- The cycles of an instruction (R100). -/
def cyclesOf (i : Instr) (s : State) : Action :=
  match i with
  | .brk sig => cyclesBrk sig s
  | .oraZpxi d => cyclesOraZpxi d s
  | .nop02 d => cyclesNop02 d s
  | .nop03 => cyclesNop03 s
  | .tsbZp d => cyclesTsbZp d s
  | .oraZp d => cyclesOraZp d s
  | .aslZp d => cyclesAslZp d s
  | .rmb0 d => cyclesRmb0 d s
  | .php => cyclesPhp s
  | .oraImm d => cyclesOraImm d s
  | .aslAcc => cyclesAslAcc s
  | .nop0B => cyclesNop0B s
  | .tsbAbs al ah => cyclesTsbAbs al ah s
  | .oraAbs al ah => cyclesOraAbs al ah s
  | .aslAbs al ah => cyclesAslAbs al ah s
  | .bbr0 zp rel => cyclesBbr0 zp rel s
  | .bpl d => cyclesBpl d s
  | .oraZpiy d => cyclesOraZpiy d s
  | .oraZpi d => cyclesOraZpi d s
  | .nop13 => cyclesNop13 s
  | .trbZp d => cyclesTrbZp d s
  | .oraZpx d => cyclesOraZpx d s
  | .aslZpx d => cyclesAslZpx d s
  | .rmb1 d => cyclesRmb1 d s
  | .clc => cyclesClc s
  | .oraAbsy al ah => cyclesOraAbsy al ah s
  | .incAcc => cyclesIncAcc s
  | .nop1B => cyclesNop1B s
  | .trbAbs al ah => cyclesTrbAbs al ah s
  | .oraAbsx al ah => cyclesOraAbsx al ah s
  | .aslAbsx al ah => cyclesAslAbsx al ah s
  | .bbr1 zp rel => cyclesBbr1 zp rel s
  | .jsr al ah => cyclesJsr al ah s
  | .andZpxi d => cyclesAndZpxi d s
  | .nop22 d => cyclesNop22 d s
  | .nop23 => cyclesNop23 s
  | .bitZp d => cyclesBitZp d s
  | .andZp d => cyclesAndZp d s
  | .rolZp d => cyclesRolZp d s
  | .rmb2 d => cyclesRmb2 d s
  | .plp => cyclesPlp s
  | .andImm d => cyclesAndImm d s
  | .rolAcc => cyclesRolAcc s
  | .nop2B => cyclesNop2B s
  | .bitAbs al ah => cyclesBitAbs al ah s
  | .andAbs al ah => cyclesAndAbs al ah s
  | .rolAbs al ah => cyclesRolAbs al ah s
  | .bbr2 zp rel => cyclesBbr2 zp rel s
  | .bmi d => cyclesBmi d s
  | .andZpiy d => cyclesAndZpiy d s
  | .andZpi d => cyclesAndZpi d s
  | .nop33 => cyclesNop33 s
  | .bitZpx d => cyclesBitZpx d s
  | .andZpx d => cyclesAndZpx d s
  | .rolZpx d => cyclesRolZpx d s
  | .rmb3 d => cyclesRmb3 d s
  | .sec => cyclesSec s
  | .andAbsy al ah => cyclesAndAbsy al ah s
  | .decAcc => cyclesDecAcc s
  | .nop3B => cyclesNop3B s
  | .bitAbsx al ah => cyclesBitAbsx al ah s
  | .andAbsx al ah => cyclesAndAbsx al ah s
  | .rolAbsx al ah => cyclesRolAbsx al ah s
  | .bbr3 zp rel => cyclesBbr3 zp rel s
  | .rti => cyclesRti s
  | .eorZpxi d => cyclesEorZpxi d s
  | .nop42 d => cyclesNop42 d s
  | .nop43 => cyclesNop43 s
  | .nop44 d => cyclesNop44 d s
  | .eorZp d => cyclesEorZp d s
  | .lsrZp d => cyclesLsrZp d s
  | .rmb4 d => cyclesRmb4 d s
  | .pha => cyclesPha s
  | .eorImm d => cyclesEorImm d s
  | .lsrAcc => cyclesLsrAcc s
  | .nop4B => cyclesNop4B s
  | .jmpAbs al ah => cyclesJmpAbs al ah s
  | .eorAbs al ah => cyclesEorAbs al ah s
  | .lsrAbs al ah => cyclesLsrAbs al ah s
  | .bbr4 zp rel => cyclesBbr4 zp rel s
  | .bvc d => cyclesBvc d s
  | .eorZpiy d => cyclesEorZpiy d s
  | .eorZpi d => cyclesEorZpi d s
  | .nop53 => cyclesNop53 s
  | .nop54 d => cyclesNop54 d s
  | .eorZpx d => cyclesEorZpx d s
  | .lsrZpx d => cyclesLsrZpx d s
  | .rmb5 d => cyclesRmb5 d s
  | .cli => cyclesCli s
  | .eorAbsy al ah => cyclesEorAbsy al ah s
  | .phy => cyclesPhy s
  | .nop5B => cyclesNop5B s
  | .nop5C al ah => cyclesNop5C al ah s
  | .eorAbsx al ah => cyclesEorAbsx al ah s
  | .lsrAbsx al ah => cyclesLsrAbsx al ah s
  | .bbr5 zp rel => cyclesBbr5 zp rel s
  | .rts => cyclesRts s
  | .adcZpxi d => cyclesAdcZpxi d s
  | .nop62 d => cyclesNop62 d s
  | .nop63 => cyclesNop63 s
  | .stzZp d => cyclesStzZp d s
  | .adcZp d => cyclesAdcZp d s
  | .rorZp d => cyclesRorZp d s
  | .rmb6 d => cyclesRmb6 d s
  | .pla => cyclesPla s
  | .adcImm d => cyclesAdcImm d s
  | .rorAcc => cyclesRorAcc s
  | .nop6B => cyclesNop6B s
  | .jmpAbsi al ah => cyclesJmpAbsi al ah s
  | .adcAbs al ah => cyclesAdcAbs al ah s
  | .rorAbs al ah => cyclesRorAbs al ah s
  | .bbr6 zp rel => cyclesBbr6 zp rel s
  | .bvs d => cyclesBvs d s
  | .adcZpiy d => cyclesAdcZpiy d s
  | .adcZpi d => cyclesAdcZpi d s
  | .nop73 => cyclesNop73 s
  | .stzZpx d => cyclesStzZpx d s
  | .adcZpx d => cyclesAdcZpx d s
  | .rorZpx d => cyclesRorZpx d s
  | .rmb7 d => cyclesRmb7 d s
  | .sei => cyclesSei s
  | .adcAbsy al ah => cyclesAdcAbsy al ah s
  | .ply => cyclesPly s
  | .nop7B => cyclesNop7B s
  | .jmpAbsxi al ah => cyclesJmpAbsxi al ah s
  | .adcAbsx al ah => cyclesAdcAbsx al ah s
  | .rorAbsx al ah => cyclesRorAbsx al ah s
  | .bbr7 zp rel => cyclesBbr7 zp rel s
  | .bra d => cyclesBra d s
  | .staZpxi d => cyclesStaZpxi d s
  | .nop82 d => cyclesNop82 d s
  | .nop83 => cyclesNop83 s
  | .styZp d => cyclesStyZp d s
  | .staZp d => cyclesStaZp d s
  | .stxZp d => cyclesStxZp d s
  | .smb0 d => cyclesSmb0 d s
  | .dey => cyclesDey s
  | .bitImm d => cyclesBitImm d s
  | .txa => cyclesTxa s
  | .nop8B => cyclesNop8B s
  | .styAbs al ah => cyclesStyAbs al ah s
  | .staAbs al ah => cyclesStaAbs al ah s
  | .stxAbs al ah => cyclesStxAbs al ah s
  | .bbs0 zp rel => cyclesBbs0 zp rel s
  | .bcc d => cyclesBcc d s
  | .staZpiy d => cyclesStaZpiy d s
  | .staZpi d => cyclesStaZpi d s
  | .nop93 => cyclesNop93 s
  | .styZpx d => cyclesStyZpx d s
  | .staZpx d => cyclesStaZpx d s
  | .stxZpy d => cyclesStxZpy d s
  | .smb1 d => cyclesSmb1 d s
  | .tya => cyclesTya s
  | .staAbsy al ah => cyclesStaAbsy al ah s
  | .txs => cyclesTxs s
  | .nop9B => cyclesNop9B s
  | .stzAbs al ah => cyclesStzAbs al ah s
  | .staAbsx al ah => cyclesStaAbsx al ah s
  | .stzAbsx al ah => cyclesStzAbsx al ah s
  | .bbs1 zp rel => cyclesBbs1 zp rel s
  | .ldyImm d => cyclesLdyImm d s
  | .ldaZpxi d => cyclesLdaZpxi d s
  | .ldxImm d => cyclesLdxImm d s
  | .nopA3 => cyclesNopA3 s
  | .ldyZp d => cyclesLdyZp d s
  | .ldaZp d => cyclesLdaZp d s
  | .ldxZp d => cyclesLdxZp d s
  | .smb2 d => cyclesSmb2 d s
  | .tay => cyclesTay s
  | .ldaImm d => cyclesLdaImm d s
  | .tax => cyclesTax s
  | .nopAB => cyclesNopAB s
  | .ldyAbs al ah => cyclesLdyAbs al ah s
  | .ldaAbs al ah => cyclesLdaAbs al ah s
  | .ldxAbs al ah => cyclesLdxAbs al ah s
  | .bbs2 zp rel => cyclesBbs2 zp rel s
  | .bcs d => cyclesBcs d s
  | .ldaZpiy d => cyclesLdaZpiy d s
  | .ldaZpi d => cyclesLdaZpi d s
  | .nopB3 => cyclesNopB3 s
  | .ldyZpx d => cyclesLdyZpx d s
  | .ldaZpx d => cyclesLdaZpx d s
  | .ldxZpy d => cyclesLdxZpy d s
  | .smb3 d => cyclesSmb3 d s
  | .clv => cyclesClv s
  | .ldaAbsy al ah => cyclesLdaAbsy al ah s
  | .tsx => cyclesTsx s
  | .nopBB => cyclesNopBB s
  | .ldyAbsx al ah => cyclesLdyAbsx al ah s
  | .ldaAbsx al ah => cyclesLdaAbsx al ah s
  | .ldxAbsy al ah => cyclesLdxAbsy al ah s
  | .bbs3 zp rel => cyclesBbs3 zp rel s
  | .cpyImm d => cyclesCpyImm d s
  | .cmpZpxi d => cyclesCmpZpxi d s
  | .nopC2 d => cyclesNopC2 d s
  | .nopC3 => cyclesNopC3 s
  | .cpyZp d => cyclesCpyZp d s
  | .cmpZp d => cyclesCmpZp d s
  | .decZp d => cyclesDecZp d s
  | .smb4 d => cyclesSmb4 d s
  | .iny => cyclesIny s
  | .cmpImm d => cyclesCmpImm d s
  | .dex => cyclesDex s
  | .wai => cyclesWai s
  | .cpyAbs al ah => cyclesCpyAbs al ah s
  | .cmpAbs al ah => cyclesCmpAbs al ah s
  | .decAbs al ah => cyclesDecAbs al ah s
  | .bbs4 zp rel => cyclesBbs4 zp rel s
  | .bne d => cyclesBne d s
  | .cmpZpiy d => cyclesCmpZpiy d s
  | .cmpZpi d => cyclesCmpZpi d s
  | .nopD3 => cyclesNopD3 s
  | .nopD4 d => cyclesNopD4 d s
  | .cmpZpx d => cyclesCmpZpx d s
  | .decZpx d => cyclesDecZpx d s
  | .smb5 d => cyclesSmb5 d s
  | .cld => cyclesCld s
  | .cmpAbsy al ah => cyclesCmpAbsy al ah s
  | .phx => cyclesPhx s
  | .stp => cyclesStp s
  | .nopDC al ah => cyclesNopDC al ah s
  | .cmpAbsx al ah => cyclesCmpAbsx al ah s
  | .decAbsx al ah => cyclesDecAbsx al ah s
  | .bbs5 zp rel => cyclesBbs5 zp rel s
  | .cpxImm d => cyclesCpxImm d s
  | .sbcZpxi d => cyclesSbcZpxi d s
  | .nopE2 d => cyclesNopE2 d s
  | .nopE3 => cyclesNopE3 s
  | .cpxZp d => cyclesCpxZp d s
  | .sbcZp d => cyclesSbcZp d s
  | .incZp d => cyclesIncZp d s
  | .smb6 d => cyclesSmb6 d s
  | .inx => cyclesInx s
  | .sbcImm d => cyclesSbcImm d s
  | .nop => cyclesNop s
  | .nopEB => cyclesNopEB s
  | .cpxAbs al ah => cyclesCpxAbs al ah s
  | .sbcAbs al ah => cyclesSbcAbs al ah s
  | .incAbs al ah => cyclesIncAbs al ah s
  | .bbs6 zp rel => cyclesBbs6 zp rel s
  | .beq d => cyclesBeq d s
  | .sbcZpiy d => cyclesSbcZpiy d s
  | .sbcZpi d => cyclesSbcZpi d s
  | .nopF3 => cyclesNopF3 s
  | .nopF4 d => cyclesNopF4 d s
  | .sbcZpx d => cyclesSbcZpx d s
  | .incZpx d => cyclesIncZpx d s
  | .smb7 d => cyclesSmb7 d s
  | .sed => cyclesSed s
  | .sbcAbsy al ah => cyclesSbcAbsy al ah s
  | .plx => cyclesPlx s
  | .nopFB => cyclesNopFB s
  | .nopFC al ah => cyclesNopFC al ah s
  | .sbcAbsx al ah => cyclesSbcAbsx al ah s
  | .incAbsx al ah => cyclesIncAbsx al ah s
  | .bbs7 zp rel => cyclesBbs7 zp rel s

end Sys2Proof.Machine
end

