-- ==== Sys2Proof/Machine/Runs.lean ====
section
/-! DEFINITION. The execution scheduler (R400 to R407, R414): the machine cycle by cycle, and the run calls at
both granularities. A call's return value is the difference of `cycle_count` after and before it. -/

namespace Sys2Proof.Machine

/-- What a run call at cycle granularity answers with: the action in progress, or a refusal. -/
abbrev FineResult := Host.Outcome Action Fault Refusal

/-- The boundary action R334 chooses, not yet begun (R401). -/
def nextAction (s : State) : FineResult :=
  match choose s with
  | .refuse => .refused .runBeforeReset
  | .stall => .next (stallCycle s)
  | .reset => .next (resetSequence s)
  | .stopped => .next (stoppedCycle s)
  | .waiting => .next (waitingCycle s)
  | .enter e => .next (enter e s)
  | .instruction =>
    match decode s.fetchBytes with
    | .ok (i, _) => .next (cyclesOf i s)
    | .error _ => .refused .undecodable

/-- The atomic step at `GRANULARITY = cycle` (R401): the next cycle of the action in progress, or the choice
of R334 and its first cycle. -/
def tick : Action → FineResult
  | .done s =>
    match nextAction s with
    | .next a => .next a.advance
    | .fault r => .fault r
    | .refused r => .refused r
  | .cycle op s k => .next (Action.cycle op s k).advance

/-- A run call that ends on a break clears it (R405). -/
def State.clearBreak (s : State) : State := { s with breakReq := false }

/-- Apply a function to the state of an answer. -/
def mapResult (f : State → State) : Result → Result
  | .next s => .next (f s)
  | .fault r => .fault r
  | .refused r => .refused r

/-- Apply a function to the state of an action in progress. -/
def mapFine (f : State → State) : FineResult → FineResult
  | .next a => .next (a.mapState f)
  | .fault r => .fault r
  | .refused r => .refused r

/-- More stall cycles than the host can ask for: the budget, every scripted request, and one. -/
def State.stallBound (s : State) : Nat :=
  s.stall + (s.script.map fun e => match e.2 with | .requestStall n => n | _ => 0).sum + 1

/-- `step_instruction` at instruction granularity (R406): boundary actions until one is not a stall cycle, or
a break is requested. -/
def drainStall : Nat → State → Result
  | 0, s => .next s
  | fuel + 1, s =>
    match step s with
    | .next t => if s.stall = 0 || t.breakReq then .next t else drainStall fuel t
    | r => r

/-- `step_instruction()` (R406). -/
def stepInstruction (s : State) : Result := mapResult State.clearBreak (drainStall s.stallBound s)

/-- The loop of `run_for_instructions` (R407), stopped by a break after a unit of work (R405). -/
def instructionsLoop : Nat → State → Result
  | 0, s => .next s
  | n + 1, s =>
    match drainStall s.stallBound s with
    | .next t => if t.breakReq then .next t else instructionsLoop n t
    | r => r

/-- `run_for_instructions(n, finish_current)` at instruction granularity (R407): no action is ever in
progress between calls, so `finish_current` has no effect. A call of no units does nothing, so that a pending break stays. -/
def runForInstructions (n : Nat) (_finishCurrent : Bool) (s : State) : Result :=
  if n = 0 then .next s else mapResult State.clearBreak (instructionsLoop n s)

/-- The loop of `run_for_cycles` at instruction granularity (R407), up to the cycle number `limit`. -/
def cyclesLoop (limit : Nat) : Nat → State → Result
  | 0, s => .next s
  | fuel + 1, s =>
    if s.cycleCount < limit then
      match step s with
      | .next t => if t.breakReq then .next t else cyclesLoop limit fuel t
      | r => r
    else .next s

/-- `run_for_cycles(n)` at instruction granularity (R407). Every boundary action takes a cycle, so `n` of them
exhaust the budget. A call of no units does nothing. -/
def runForCycles (n : Nat) (s : State) : Result :=
  if n = 0 then .next s else mapResult State.clearBreak (cyclesLoop (s.cycleCount + n) n s)

/-- Perform the remaining cycles of an action, stopped by a break after a cycle (R405, R406). -/
def Action.finishOrBreak : Action → Action
  | .done s => .done s
  | .cycle op s k =>
    let b := k (perform op s).1 (perform op s).2
    if b.state.breakReq then b else (k (perform op s).1 (perform op s).2).finishOrBreak

/-- `step_instruction` at cycle granularity from a boundary (R406). -/
def drainStallFine : Nat → State → FineResult
  | 0, s => .next (.done s)
  | fuel + 1, s =>
    match nextAction s with
    | .next a =>
      match a.finishOrBreak with
      | .done t => if s.stall = 0 || t.breakReq then .next (.done t) else drainStallFine fuel t
      | b => .next b
    | r => r

/-- One `step_instruction` at cycle granularity (R406), the break still set. -/
def stepFine : Action → FineResult
  | .done s => drainStallFine s.stallBound s
  | a => .next a.finishOrBreak

/-- `step_instruction()` at cycle granularity (R406). -/
def stepInstructionFine (a : Action) : FineResult := mapFine State.clearBreak (stepFine a)

/-- The loop of `run_for_instructions` at cycle granularity (R407), stopped by a break as `instructionsLoop` is (R405). -/
def instructionsLoopFine : Nat → Action → FineResult
  | 0, a => .next a
  | n + 1, a =>
    match stepFine a with
    | .next b => if b.state.breakReq then .next b else instructionsLoopFine n b
    | r => r

/-- The completion of an action in progress that `finish_current` asks for (R407), then the loop unless a break was seen. With
no action in progress the flag has no effect. -/
def finishCurrentFine (n : Nat) (a : Action) : FineResult :=
  if a.active then
    if a.finishOrBreak.state.breakReq then .next a.finishOrBreak else instructionsLoopFine n a.finishOrBreak
  else instructionsLoopFine n a

/-- `run_for_instructions(n, finish_current)` at cycle granularity (R407, D24): with `finish_current` an
action in progress is completed first and not counted. A call of no units does nothing. -/
def runForInstructionsFine (n : Nat) (finishCurrent : Bool) (a : Action) : FineResult :=
  if n = 0 then .next a
  else mapFine State.clearBreak (if finishCurrent then finishCurrentFine n a else instructionsLoopFine n a)

/-- The loop of `run_for_cycles` at cycle granularity (R407): `n` cycles unless broken. -/
def ticks : Nat → Action → FineResult
  | 0, a => .next a
  | n + 1, a =>
    match tick a with
    | .next b => if b.state.breakReq then .next b else ticks n b
    | r => r

/-- `run_for_cycles(n)` at cycle granularity (R407). A call of no units does nothing. -/
def runForCyclesFine (n : Nat) (a : Action) : FineResult :=
  if n = 0 then .next a else mapFine State.clearBreak (ticks n a)

end Sys2Proof.Machine
end

