-- ==== Sys2Proof/Safety.lean ====
section
/-! DEFINITION. The terms the statements use: the invariant of a boundary, a silent host, what an instruction
reads and calls, and what it means that an instruction completes with a given effect and nothing else. -/

namespace Sys2Proof.Machine

/-- What holds at every boundary (R37), and that memory is canonical. -/
structure Inv (s : State) : Prop where
  /-- memory keeps its canonical form -/
  memWf : s.mem.wf = true
  /-- no action is in progress (R35, R37); that the other fields of `ctx` are then 0 is log entry 11 -/
  ctxIdle : s.ctx = Ctx.idle
  /-- `committed != none` implies `RUNNING` (R37) -/
  commitRunning : s.committed ≠ .none → s.execState = .running

/-- The host does nothing from its callbacks: it answers reads from memory and makes its events between steps
(R404, instruction granularity). -/
def Quiet (s : State) : Prop := s.script = []

/-- The next boundary action is an instruction (R334 line 7). -/
def AtInstruction (s : State) : Prop :=
  s.resetSeen = true ∧ s.stall = 0 ∧ s.pendReset = false ∧ s.execState = .running ∧ s.committed = .none

/-- A call that is a bus access, not a hook. -/
def HostCall.isAccess : HostCall → Bool
  | .read _ => true
  | .write _ _ => true
  | .brkHook _ => false
  | .stpHook => false
  | .eoiHook => false

/-- The end-of-instruction hook's call, when it is installed (R410, R411). -/
def State.eoiCalls (s : State) : List HostCall := if s.hooks.eoi then [.eoiHook] else []

/-- The byte of memory at a word address. -/
def State.byteAt (s : State) (a : Word) : Byte := s.mem.read a.toNat

/-- The zero-page pointer at `p`, its second byte at `(p + 1) & $FF` (R131). -/
def State.zpPointerAt (s : State) (p : Byte) : Word := word (s.byteAt (zext (p + 1))) (s.byteAt (zext p))

/-- The pointer anywhere in memory, its second byte at the next address (R134). -/
def State.pointerAt (s : State) (p : Word) : Word := word (s.byteAt (p + 1)) (s.byteAt p)

/-- The base address an indexed mode adds its index to (R128, R129, R133). -/
def Mode.base (m : Mode) (s : State) : Word :=
  match m with
  | .absx al ah | .absy al ah => word ah al
  | .zpiy d => s.zpPointerAt d
  | _ => 0

/-- The index register's value (R128, R129, R133). -/
def Mode.index (m : Mode) (s : State) : Byte :=
  match m with
  | .absx _ _ => s.x
  | .absy _ _ | .zpiy _ => s.y
  | _ => 0

/-- The effective address (R123 to R133), `s` being the state before the instruction. -/
def Mode.ea (m : Mode) (s : State) : Word :=
  match m with
  | .imm _ => s.pc + 1
  | .zp d => zext d
  | .zpx d => zext (d + s.x)
  | .zpy d => zext (d + s.y)
  | .abs al ah => word ah al
  | .zpi d => s.zpPointerAt d
  | .zpxi d => s.zpPointerAt (d + s.x)
  | .absx _ _ | .absy _ _ | .zpiy _ => indexed (m.base s) (m.index s)

/-- `page_penalty` as 0 or 1 (R130, R142). -/
def Mode.penalty (m : Mode) (s : State) : Nat :=
  match m with
  | .absx _ _ | .absy _ _ | .zpiy _ => (pagePenalty (m.base s) (m.index s)).toNat
  | _ => 0

/-- The byte a reading instruction operates on. -/
def Mode.operand (m : Mode) (s : State) : Byte :=
  match m with
  | .imm d => d
  | _ => s.byteAt (m.ea s)

/-- The dead read at the end of an indexed mode (R130). -/
def Mode.deadReads (m : Mode) (kind : Kind) (s : State) : List HostCall :=
  if kind.deadRead (pagePenalty (m.base s) (m.index s)) then [.read (wrongAddr (m.base s) (m.index s))] else []

/-- The accesses of a resolver, in order (R123 to R133). -/
def Mode.resolverCalls (m : Mode) (kind : Kind) (s : State) : List HostCall :=
  match m with
  | .imm _ => []
  | .zp _ => [.read (s.pc + 1)]
  | .zpx _ | .zpy _ => [.read (s.pc + 1), .read (s.pc + 1)]
  | .abs _ _ => [.read (s.pc + 1), .read (s.pc + 2)]
  | .absx _ _ | .absy _ _ => [.read (s.pc + 1), .read (s.pc + 2)] ++ m.deadReads kind s
  | .zpi d => [.read (s.pc + 1), .read (zext d), .read (zext (d + 1))]
  | .zpxi d => [.read (s.pc + 1), .read (s.pc + 1), .read (zext (d + s.x)), .read (zext (d + s.x + 1))]
  | .zpiy d => [.read (s.pc + 1), .read (zext d), .read (zext (d + 1))] ++ m.deadReads kind s

/-- The accesses of the read template (R150). -/
def readCalls (m : Mode) (s : State) : List HostCall :=
  [.read s.pc] ++ m.resolverCalls .read s ++ [.read (m.ea s)]

/-- The accesses of `ADC` and `SBC` (R150, R170). -/
def decimalCalls (m : Mode) (s : State) : List HostCall :=
  readCalls m s ++ if s.p.d then [.read (m.ea s)] else []

/-- The accesses of the store template (R151). -/
def storeCalls (m : Mode) (v : Byte) (s : State) : List HostCall :=
  [.read s.pc] ++ m.resolverCalls .store s ++ [.write (m.ea s) v]

/-- The middle access of a read-modify-write (R190). -/
def dummyCall (ea : Word) (s : State) : HostCall :=
  match s.params.rmwDummy with
  | .writeOld => .write ea (s.byteAt ea)
  | .writeIntermediate => .write ea (Config.freeByte s.draws)
  | .read => .read ea

/-- The accesses of the read-modify-write template (R190). -/
def rmwCalls (m : Mode) (kind : Kind) (v : Byte) (s : State) : List HostCall :=
  [.read s.pc] ++ m.resolverCalls kind s ++ [.read (m.ea s), dummyCall (m.ea s) s, .write (m.ea s) v]

/-- `t`'s running record put into `s`: the counters, the calls, the commit and the context, which every
instruction changes. `t = s.withRecord t` says that `t` differs from `s` in nothing else. -/
def State.withRecord (s t : State) : State :=
  { s with
    cycleCount := t.cycleCount, instrCount := t.instrCount, trace := t.trace
    committed := t.committed, ctx := t.ctx }

/-- Instruction `i`, which is these bytes, run in `s`, makes these calls in `n` cycles and leaves `eff`, and
changes nothing that `eff` does not change. The context is discarded (R35); that all its fields are then 0, beside `active`, is
log entry 11. -/
def Completes (s : State) (i : Instr) (bytes : List Byte) (calls : List HostCall) (n : Nat) (eff : State) : Prop :=
  encode i = bytes ∧
  ∃ t, exec i s = .next t ∧ t = eff.withRecord t ∧
    t.trace = s.eoiCalls ++ calls.reverse ++ s.trace ∧
    t.cycleCount = s.cycleCount + n ∧ t.instrCount = s.instrCount + 1 ∧ t.ctx = Ctx.idle

/-- The state with the program counter after an instruction of these bytes. -/
def State.after (s : State) (bytes : List Byte) : State := { s with pc := s.pc + BitVec.ofNat 16 bytes.length }

/-- A reading instruction: `eff` is its effect on the byte read. -/
def ReadCompletes (s : State) (i : Instr) (bytes : List Byte) (m : Mode) (n : Nat) (eff : Byte → State) : Prop :=
  Completes s i bytes (readCalls m s) n ((eff (m.operand s)).after bytes)

/-- `ADC` or `SBC`: one more cycle when `P.D` is set (R170). -/
def DecimalCompletes (s : State) (i : Instr) (bytes : List Byte) (m : Mode) (n : Nat) (eff : Byte → State) : Prop :=
  Completes s i bytes (decimalCalls m s) (n + s.p.d.toNat) ((eff (m.operand s)).after bytes)

/-- After instruction `i`, the byte at `ea` is `v` and every other byte of memory is as before. -/
def StoresOnly (s : State) (i : Instr) (ea : Word) (v : Byte) : Prop :=
  ∀ t, exec i s = .next t →
    t.byteAt ea = v ∧ ∀ a : Word, a ≠ ea → t.byteAt a = s.byteAt a

/-- A store of `v`: no flag and no register but `PC` changes (R151). -/
def StoreCompletes (s : State) (i : Instr) (bytes : List Byte) (m : Mode) (n : Nat) (v : Byte) : Prop :=
  Completes s i bytes (storeCalls m v s) n ({ s with mem := s.mem.write (m.ea s).toNat v }.after bytes) ∧
  StoresOnly s i (m.ea s) v

/-- The free values a read-modify-write draws (R190). -/
def State.rmwDraws (s : State) : Nat :=
  match s.params.rmwDummy with
  | .writeIntermediate => s.draws + 1
  | _ => s.draws

/-- A memory read-modify-write: the byte at the effective address becomes `v` and the flags `p`. -/
def RmwCompletes (s : State) (i : Instr) (bytes : List Byte) (m : Mode) (kind : Kind) (n : Nat) (v : Byte) (p : Flags) :
    Prop :=
  Completes s i bytes (rmwCalls m kind v s) n
    ({ s with mem := s.mem.write (m.ea s).toNat v, p := p, draws := s.rmwDraws }.after bytes) ∧
  StoresOnly s i (m.ea s) v

/-- A one-byte instruction whose second cycle is `Idle(PC)` (R121, R122). -/
def ImpliedCompletes (s : State) (i : Instr) (opcode : Byte) (eff : State) : Prop :=
  Completes s i [opcode] [.read s.pc, .read (s.pc + 1)] 2 (eff.after [opcode])

/-- A push of `v` (R220). -/
def PushCompletes (s : State) (i : Instr) (opcode : Byte) (v : Byte) : Prop :=
  Completes s i [opcode] [.read s.pc, .read (s.pc + 1), .write s.stackAddr v] 3
    ({ s with mem := s.mem.write s.stackAddr.toNat v, sp := s.sp - 1 }.after [opcode]) ∧
  StoresOnly s i s.stackAddr v

/-- The stack address `n` bytes above the stack pointer, within page 1 (R23). -/
def State.stackAbove (s : State) (n : Byte) : Word := Config.stackPage ||| zext (s.sp + n)

/-- The stack address `n` bytes below the stack pointer, within page 1 (R23). -/
def State.stackBelow (s : State) (n : Byte) : Word := Config.stackPage ||| zext (s.sp - n)

/-- A pull (R221): `eff` is the effect of the byte pulled. -/
def PullCompletes (s : State) (i : Instr) (opcode : Byte) (eff : Byte → State) : Prop :=
  Completes s i [opcode] [.read s.pc, .read (s.pc + 1), .read s.stackAddr, .read (s.stackAbove 1)] 4
    ({ eff (s.byteAt (s.stackAbove 1)) with sp := s.sp + 1 }.after [opcode])

/-- The target of a branch whose fall-through address is `pc` (R136). -/
def offsetTarget (pc : Word) (d : Byte) : Word := BitVec.ofInt 16 (pc.toNat + d.toInt)

/-- The idle reads of a branch that is taken (R136). -/
def takenCalls (pc : Word) (d : Byte) : List HostCall :=
  if hi8 (offsetTarget pc d) = hi8 pc then [.read pc]
  else [.read pc, .read (word (hi8 pc) (lo8 (offsetTarget pc d)))]

/-- A conditional branch (R136, R267): 2 cycles, one more when taken, one more again when the target's page
differs from that of the fall-through address. -/
def BranchCompletes (s : State) (i : Instr) (opcode d : Byte) (taken : Bool) : Prop :=
  let calls := [.read s.pc, .read (s.pc + 1)] ++ if taken then takenCalls (s.pc + 2) d else []
  Completes s i [opcode, d] calls
    (2 + taken.toNat + (taken && hi8 (offsetTarget (s.pc + 2) d) != hi8 (s.pc + 2)).toNat)
    { s with pc := if taken then offsetTarget (s.pc + 2) d else s.pc + 2 }

/-- A bit branch (R137, R277, R278). -/
def BitBranchCompletes (s : State) (i : Instr) (opcode zp rel : Byte) (taken : Bool) : Prop :=
  let calls :=
    [.read s.pc, .read (s.pc + 1), .read (zext zp), .read (zext zp), .read (s.pc + 2)] ++
      if taken then takenCalls (s.pc + 3) rel else []
  Completes s i [opcode, zp, rel] calls
    (5 + taken.toNat + (taken && hi8 (offsetTarget (s.pc + 3) rel) != hi8 (s.pc + 3)).toNat)
    { s with pc := if taken then offsetTarget (s.pc + 3) rel else s.pc + 3 }

/-- Memory after `PC` (as `ret`) and a status byte have been pushed, high byte first (R77, R335). -/
def State.interruptMem (s : State) (ret : Word) (status : Byte) : Memory :=
  ((s.mem.write s.stackAddr.toNat (hi8 ret)).write (s.stackBelow 1).toNat (lo8 ret)).write (s.stackBelow 2).toNat status

/-- The state after an interrupt that returns to `ret` has been taken through `vec` (R266, R335). -/
def State.interrupted (s : State) (ret : Word) (status : Byte) (vec : Word) : State :=
  let m := s.interruptMem ret status
  { s with
    mem := m, sp := s.sp - 3, pc := word (m.read (vec + 1).toNat) (m.read vec.toNat)
    p := { s.p with i := true, d := false } }

/-- The five accesses of the shared interrupt path after its first two cycles (R266, R335). -/
def State.interruptCalls (s : State) (ret : Word) (status : Byte) (vec : Word) : List HostCall :=
  [.write s.stackAddr (hi8 ret), .write (s.stackBelow 1) (lo8 ret), .write (s.stackBelow 2) status,
    .read vec, .read (vec + 1)]

/-- The 30 one-cycle reserved opcodes (R303). -/
def isOneCycle (i : Instr) : Bool :=
  match encode i with
  | [opcode] =>
    opcode.toNat % 16 == 0x3 ||
      (opcode.toNat % 16 == 0xB && opcode != 0xCB && opcode != 0xDB)
  | _ => false

/-- What an instruction leaves committed under a silent host (R331 to R333): a one-cycle opcode does not sample,
`RTI` samples with the restored `I`, `STP` drops what it sampled (log entry 8), every other instruction samples
with `P.I` as it was before. -/
def commitAfter (i : Instr) (s : State) : Commit :=
  if isOneCycle i then s.committed
  else match i with
    | .rti => (s.setStatus (s.byteAt (s.stackAbove 1))).sampled
    | .stp => .none
    | _ => s.sampled

/-- What instruction `i` leaves committed (R331, R332). -/
def Commits (s : State) (i : Instr) (c : Commit) : Prop := ∀ t, exec i s = .next t → t.committed = c

/-- The memory `m` differs from that of `s` at these addresses only. -/
def OnlyBytesChange (s : State) (m : Memory) (as : List Word) : Prop :=
  ∀ a : Word, a ∉ as → m.read a.toNat = s.byteAt a

/-- A step from `s` makes these calls in `n` cycles, counts `k` instructions, leaves `c` committed and otherwise
leaves `eff`. The context is discarded as in `Completes` (log entry 11). -/
def Steps (s : State) (calls : List HostCall) (n k : Nat) (c : Commit) (eff : State) : Prop :=
  ∃ t, step s = .next t ∧ t = eff.withRecord t ∧ t.trace = calls.reverse ++ s.trace ∧
    t.cycleCount = s.cycleCount + n ∧ t.instrCount = s.instrCount + k ∧ t.committed = c ∧ t.ctx = Ctx.idle

/-- The boundary is past lines 1 and 2 of R334. -/
def NoStallOrReset (s : State) : Prop := s.resetSeen = true ∧ s.stall = 0 ∧ s.pendReset = false

/-- These bytes stand in memory at the program counter, wrapping at `$FFFF` (R66, R90). -/
def BytesAtPc (s : State) (bytes : List Byte) : Prop :=
  ∀ n (h : n < bytes.length), s.byteAt (s.pc + BitVec.ofNat 16 n) = bytes[n]

/-- `n` cycles of the cycle machine (R401), with no run call around them. -/
def tickN : Nat → Action → FineResult
  | 0, a => .next a
  | n + 1, a =>
    match tick a with
    | .next b => tickN n b
    | r => r

/-- Two hexadecimal digits as a packed decimal byte. -/
def bcd (tens ones : Nat) : Byte := BitVec.ofNat 8 (16 * tens + ones)

end Sys2Proof.Machine
end

