-- ==== Sys2Proof/Certificates/Slice0/Obligations.lean ====
section
/-! DEFINITION. The statements for the provers. `Completes`, `Steps` and their kin (Sys2Proof/Safety.lean) say that
`exec` or `step` ANSWERS A NEXT STATE, which calls it makes in how many cycles, what it changes and that it changes
nothing else. `Quiet` says that the host acts between steps only. -/

open Sys2Proof Sys2Proof.Machine

/-- The reset state is the result of the RESET sequence (R340) from `State.powerOn`. It rests on the model's own power-on values and open-bus byte (log entries 1 and 2). -/
def Obligations.ResetStateIsResetSequenceResult : Prop :=
  step State.powerOn.requestReset = .next State.reset

/-- RESET (R340), from every execution state and whatever is committed. The conclusion's frame is `Steps`: nothing but what `eff` says changes. -/
def Obligations.ResetSequenceEffect : Prop :=
  ∀ s : State, Quiet s → s.stall = 0 → s.pendReset = true →
    Steps s
      ([.read s.pc, .read s.pc, .read s.stackAddr, .read (s.stackBelow 1), .read (s.stackBelow 2),
        .read 0xFFFC, .read 0xFFFD] ++ s.eoiCalls)
      7 1 .none
      { s with
        pendReset := false, pendNmi := false, irqLine := false, execState := .running, resetSeen := true
        sp := s.sp - 3, pc := word (s.byteAt 0xFFFD) (s.byteAt 0xFFFC), p := { s.p with i := true, d := false } }

/-- R334 line 7 and R100: the per-instruction statements reach a run through this one. -/
def Obligations.StepRunsTheInstructionAtPc : Prop :=
  ∀ (s : State) (i : Instr), AtInstruction s → Quiet s → BytesAtPc s (encode i) → step s = exec i s

/-- R371: the host must call `reset` before the first run call (log entry 9). -/
def Obligations.RunBeforeResetIsRefused : Prop :=
  ∀ s : State, s.resetSeen = false → s.pendReset = false → step s = .refused .runBeforeReset

/-- R402 and line 1 of R334. -/
def Obligations.StallCycleEffect : Prop :=
  ∀ s : State, Quiet s → s.resetSeen = true ∨ s.pendReset = true → 0 < s.stall →
    Steps s [.read s.pc] 1 0 s.committed { s with stall := s.stall - 1 }

/-- R346: no interrupt request appears among the hypotheses, so none of them matters. -/
def Obligations.StoppedCycleEffect : Prop :=
  ∀ s : State, Quiet s → s.resetSeen = true → s.stall = 0 → s.execState = .stopped →
    (s.pendReset = false → Steps s [.read s.pc] 1 0 s.committed s) ∧
    (s.pendReset = true → ∃ t, step s = .next t ∧ t.execState = .running) ∧
    s.assertNmi = { s with pendNmi := true } ∧ s.assertIrq = { s with irqLine := true } ∧
    s.cancelIrq = { s with irqLine := false }

/-- R345, with the sample of R331 written out. -/
def Obligations.WaitingCycleEffect : Prop :=
  ∀ s : State, Quiet s → NoStallOrReset s → s.execState = .waiting → s.committed = .none →
    (s.pendNmi = false → s.irqLine = false → Steps s [.read s.pc] 1 0 .none s) ∧
    (s.pendNmi = true → Steps s [.read s.pc] 1 0 .nmi { s with execState := .running }) ∧
    (s.pendNmi = false → s.irqLine = true →
      Steps s [.read s.pc] 1 0 (if s.p.i then .none else .irq) { s with execState := .running })

/-- R335. `interrupted` says the new memory, stack pointer, PC and flags; `OnlyBytesChange` says the rest of memory stays. -/
def Obligations.InterruptEntryEffect : Prop :=
  ∀ s : State, Quiet s → NoStallOrReset s → s.execState = .running → s.mem.wf = true →
    let p := s.p.statusByte false
    (s.committed = .nmi →
      Steps s ([.read s.pc, .read s.pc] ++ s.interruptCalls s.pc p 0xFFFA ++ s.eoiCalls) 7 1 .none
        { s.interrupted s.pc p 0xFFFA with pendNmi := false }) ∧
    (s.committed = .irq →
      Steps s ([.read s.pc, .read s.pc] ++ s.interruptCalls s.pc p 0xFFFE ++ s.eoiCalls) 7 1 .none
        (s.interrupted s.pc p 0xFFFE)) ∧
    OnlyBytesChange s (s.interruptMem s.pc p) [s.stackAddr, s.stackBelow 1, s.stackBelow 2]

/-- No bit of an encoding is dropped, and no bytes decode to an instruction that does not encode to them (R90, R91, R93). -/
def Obligations.DecodeOfEncode : Prop :=
  ∀ (i : Instr) (rest bytes : List Byte), decode bytes = .ok (i, rest) ↔ bytes = encode i ++ rest

/-- R90, R96, R97: the opcode alone determines the length, and every one of the 256 opcodes is defined. -/
def Obligations.EveryOpcodeDecodesByItsFirstByte : Prop :=
  (∀ bytes : List Byte, wellFormedBytes bytes = true ↔ ∃ i, decode bytes = .ok (i, [])) ∧
  ∀ (opcode : Byte) (rest : List Byte), operandCount opcode ≤ 2 ∧
    (operandCount opcode ≤ rest.length ↔ ∃ i, decode (opcode :: rest) = .ok (i, rest.drop (operandCount opcode)))

/-- The examples of R152, R261, R263, R277, R278, R204, R205, R266, R301, R302 and R308. -/
def Obligations.SpecWordsDecode : Prop :=
  decode [0xA9, 0x42] = .ok (.ldaImm 0x42, []) ∧ decode [0xBD, 0xFF, 0x12] = .ok (.ldaAbsx 0xFF 0x12, []) ∧
  decode [0x6C, 0xFF, 0x12] = .ok (.jmpAbsi 0xFF 0x12, []) ∧ decode [0x20, 0x00, 0x30] = .ok (.jsr 0x00 0x30, []) ∧
  decode [0x3F, 0x10, 0x05] = .ok (.bbr3 0x10 0x05, []) ∧ decode [0xFF, 0x10, 0xFD] = .ok (.bbs7 0x10 0xFD, []) ∧
  decode [0x37, 0x10] = .ok (.rmb3 0x10, []) ∧ decode [0xF7, 0x10] = .ok (.smb7 0x10, []) ∧
  decode [0x00, 0xEA] = .ok (.brk 0xEA, []) ∧ decode [0xCB] = .ok (.wai, []) ∧ decode [0xDB] = .ok (.stp, []) ∧
  decode [0x5C, 0x34, 0x12] = .ok (.nop5C 0x34 0x12, [])

/-- R37 of `State.reset`: memory canonical, the context idle, and a commit implies RUNNING. `State.reset`, its empty memory included, is
the model's choice (log entries 1 and 2, DESIGN CHOICE), and so are the zeros of the idle context beside `active` (log entry 11). -/
def Obligations.ResetSatisfiesInvariant : Prop :=
  Inv State.reset

/-- R37 "Invariants that hold at every instruction boundary", for every host (no `Quiet`) and every state, reached or not. It holds through `STP` and `WAI` because of log entries 7 and 8.
That the idle context holds zeros beside `active` is the model's choice (log entry 11). -/
def Obligations.StepKeepsInvariant : Prop :=
  ∀ s t : State, Inv s → step s = .next t → Inv t

/-- R78: "the cycle count of an instruction is the number of accesses in its access sequence". -/
def Obligations.CyclesAreBusAccesses : Prop :=
  ∀ s t : State, step s = .next t →
    ∃ calls, t.trace = calls ++ s.trace ∧ t.cycleCount = s.cycleCount + (calls.filter HostCall.isAccess).length ∧
      s.cycleCount < t.cycleCount

/-- R320: no instruction raises an exception or fails; R411: each reaches the end-of-instruction point once. -/
def Obligations.EveryInstructionCompletesUnderEveryHost : Prop :=
  ∀ (i : Instr) (s : State), ∃ t, exec i s = .next t ∧ t.ctx = Ctx.idle ∧ t.instrCount = s.instrCount + 1 ∧
    s.cycleCount + 1 ≤ t.cycleCount ∧ t.cycleCount ≤ s.cycleCount + 8 ∧
    t.script = s.script ∧ t.hooks = s.hooks ∧ t.params = s.params ∧ t.resetSeen = s.resetSeen

/-- R416: the core never halts of its own accord; R320: nothing faults. -/
def Obligations.StepAlwaysGoesOn : Prop :=
  ∀ s : State, s.resetSeen = true ∨ s.pendReset = true →
    ∃ t, step s = .next t ∧ (t.resetSeen = true ∨ t.pendReset = true)

/-- R29: "exits on any asserted interrupt" and "exits only on RESET". -/
def Obligations.ExecutionStateTransitions : Prop :=
  ∀ s t : State, step s = .next t →
    (t.execState = .waiting → s.execState ≠ .waiting → ∃ rest, decode s.fetchBytes = .ok (.wai, rest)) ∧
    (t.execState = .stopped → s.execState ≠ .stopped → ∃ rest, decode s.fetchBytes = .ok (.stp, rest)) ∧
    (s.execState = .stopped → t.execState ≠ .stopped → s.pendReset = true)

/-- R400: "they perform the same sequence of bus accesses and reach the same state at every instruction boundary". -/
def Obligations.CycleSteppingReachesTheStep : Prop :=
  ∀ s t : State, step s = .next t → tickN (t.cycleCount - s.cycleCount) (.done s) = .next (.done t)

/-- R414, slicing invariance at cycle granularity: stopping and resuming mid-instruction changes nothing. -/
def Obligations.CycleBudgetsAdd : Prop :=
  ∀ (n m : Nat) (a b : Action), ticks n a = .next b → b.state.breakReq = false →
    ticks (n + m) a = ticks m b ∧ tickN n a = .next b

/-- The RAM host of R76, and that equal memories are equal data. -/
def Obligations.MemoryReadsWhatWasWritten : Prop :=
  ∀ (m : Memory) (a : Word) (v w : Byte), m.wf = true →
    (m.write a.toNat v).read a.toNat = v ∧ (∀ b : Word, b ≠ a → (m.write a.toNat v).read b.toNat = m.read b.toNat) ∧
    (m.write a.toNat v).wf = true ∧ (m.write a.toNat v).write a.toNat w = m.write a.toNat w ∧
    ∀ m' : Memory, m'.wf = true → (∀ b : Word, m'.read b.toNat = m.read b.toNat) → m' = m

/-- R27 and R28, with the round trip the source asks for. -/
def Obligations.StatusByteLayout : Prop :=
  ∀ (s : State) (p : Flags) (b : Bool) (v : Byte),
    (p.statusByte b).toNat = p.n.toNat * 128 + p.v.toNat * 64 + 32 + b.toNat * 16 + p.d.toNat * 8 + p.i.toNat * 4 +
      p.z.toNat * 2 + p.c.toNat ∧
    s.getStatus = s.p.statusByte true ∧
    s.setStatus v = { s with p :=
      { n := v.getLsbD 7, v := v.getLsbD 6, d := v.getLsbD 3, i := v.getLsbD 2, z := v.getLsbD 1, c := v.getLsbD 0 } } ∧
    (s.setStatus v).irqMask = !v.getLsbD 2 ∧ (s.setStatus v).getStatus = v ||| 0x30

/-- R171, the overflow both as the expression of the rule and as the signed range it stands for. -/
def Obligations.BinaryAddResultCarryOverflow : Prop :=
  ∀ (a b : Byte) (c : Bool),
    let r := addBin a b c
    r.r.toNat = (a.toNat + b.toNat + c.toNat) % 256 ∧
    (r.cout = true ↔ a.toNat + b.toNat + c.toNat > 0xFF) ∧
    (r.v = true ↔ (a ^^^ r.r) &&& (b ^^^ r.r) &&& 0x80 ≠ 0) ∧
    (r.v = true ↔ a.msb = b.msb ∧ r.r.msb ≠ a.msb) ∧
    (r.v = true ↔ a.toInt + b.toInt + c.toNat < -128 ∨ a.toInt + b.toInt + c.toNat > 127)

/-- R172: "equals decimal addition whenever both nibbles of `a` and of `b` are 0 to 9". -/
def Obligations.DecimalAddIsDecimalAddition : Prop :=
  ∀ (x1 x0 y1 y0 : Nat) (c : Bool), x1 ≤ 9 → x0 ≤ 9 → y1 ≤ 9 → y0 ≤ 9 →
    let sum := 10 * x1 + x0 + (10 * y1 + y0) + c.toNat
    addDec (bcd x1 x0) (bcd y1 y0) c = (bcd (sum / 10 % 10) (sum % 10), decide (sum ≥ 100))

/-- R173: "For valid BCD operands `r` is the decimal difference modulo 100", and the carry rule. -/
def Obligations.DecimalSubtractIsDecimalSubtraction : Prop :=
  ∀ (x1 x0 y1 y0 : Nat) (c : Bool), x1 ≤ 9 → x0 ≤ 9 → y1 ≤ 9 → y0 ≤ 9 →
    let diff := 100 + (10 * x1 + x0) + c.toNat - 1 - (10 * y1 + y0)
    subDec (bcd x1 x0) (bcd y1 y0) c = bcd (diff / 10 % 10) (diff % 10) ∧
    ((addBin (bcd x1 x0) (~~~(bcd y1 y0)) c).cout = true ↔ diff ≥ 100)

/-- R152, every mode with its opcode and cycle count. -/
def Obligations.LdaLoadsA : Prop :=
  ∀ (s : State) (d al ah : Byte), Quiet s →
    let nz := fun v : Byte => { s.p with n := v.msb, z := v == 0 }
    let eff := fun v : Byte => { s with a := v, p := nz v }
    ReadCompletes s (.ldaZpxi d) [0xA1, d] (.zpxi d) 6 eff ∧
    ReadCompletes s (.ldaZp d) [0xA5, d] (.zp d) 3 eff ∧
    ReadCompletes s (.ldaImm d) [0xA9, d] (.imm d) 2 eff ∧
    ReadCompletes s (.ldaAbs al ah) [0xAD, al, ah] (.abs al ah) 4 eff ∧
    ReadCompletes s (.ldaZpiy d) [0xB1, d] (.zpiy d) (5 + Mode.penalty (.zpiy d) s) eff ∧
    ReadCompletes s (.ldaZpi d) [0xB2, d] (.zpi d) 5 eff ∧
    ReadCompletes s (.ldaZpx d) [0xB5, d] (.zpx d) 4 eff ∧
    ReadCompletes s (.ldaAbsy al ah) [0xB9, al, ah] (.absy al ah) (4 + Mode.penalty (.absy al ah) s) eff ∧
    ReadCompletes s (.ldaAbsx al ah) [0xBD, al, ah] (.absx al ah) (4 + Mode.penalty (.absx al ah) s) eff

/-- R153 and R154. -/
def Obligations.LdxLdyLoadIndexRegisters : Prop :=
  ∀ (s : State) (d al ah : Byte), Quiet s →
    let nz := fun v : Byte => { s.p with n := v.msb, z := v == 0 }
    let ldx := fun v : Byte => { s with x := v, p := nz v }
    let ldy := fun v : Byte => { s with y := v, p := nz v }
    ReadCompletes s (.ldxImm d) [0xA2, d] (.imm d) 2 ldx ∧
    ReadCompletes s (.ldxZp d) [0xA6, d] (.zp d) 3 ldx ∧
    ReadCompletes s (.ldxAbs al ah) [0xAE, al, ah] (.abs al ah) 4 ldx ∧
    ReadCompletes s (.ldxZpy d) [0xB6, d] (.zpy d) 4 ldx ∧
    ReadCompletes s (.ldxAbsy al ah) [0xBE, al, ah] (.absy al ah) (4 + Mode.penalty (.absy al ah) s) ldx ∧
    ReadCompletes s (.ldyImm d) [0xA0, d] (.imm d) 2 ldy ∧
    ReadCompletes s (.ldyZp d) [0xA4, d] (.zp d) 3 ldy ∧
    ReadCompletes s (.ldyAbs al ah) [0xAC, al, ah] (.abs al ah) 4 ldy ∧
    ReadCompletes s (.ldyZpx d) [0xB4, d] (.zpx d) 4 ldy ∧
    ReadCompletes s (.ldyAbsx al ah) [0xBC, al, ah] (.absx al ah) (4 + Mode.penalty (.absx al ah) s) ldy

/-- R155 with the template of R151. -/
def Obligations.StaStoresA : Prop :=
  ∀ (s : State) (d al ah : Byte), Quiet s → s.mem.wf = true →
    StoreCompletes s (.staZpxi d) [0x81, d] (.zpxi d) 6 s.a ∧
    StoreCompletes s (.staZp d) [0x85, d] (.zp d) 3 s.a ∧
    StoreCompletes s (.staAbs al ah) [0x8D, al, ah] (.abs al ah) 4 s.a ∧
    StoreCompletes s (.staZpiy d) [0x91, d] (.zpiy d) 6 s.a ∧
    StoreCompletes s (.staZpi d) [0x92, d] (.zpi d) 5 s.a ∧
    StoreCompletes s (.staZpx d) [0x95, d] (.zpx d) 4 s.a ∧
    StoreCompletes s (.staAbsy al ah) [0x99, al, ah] (.absy al ah) 5 s.a ∧
    StoreCompletes s (.staAbsx al ah) [0x9D, al, ah] (.absx al ah) 5 s.a

/-- R156, R157 and R158. -/
def Obligations.StxStyStzStore : Prop :=
  ∀ (s : State) (d al ah : Byte), Quiet s → s.mem.wf = true →
    StoreCompletes s (.stxZp d) [0x86, d] (.zp d) 3 s.x ∧
    StoreCompletes s (.stxAbs al ah) [0x8E, al, ah] (.abs al ah) 4 s.x ∧
    StoreCompletes s (.stxZpy d) [0x96, d] (.zpy d) 4 s.x ∧
    StoreCompletes s (.styZp d) [0x84, d] (.zp d) 3 s.y ∧
    StoreCompletes s (.styAbs al ah) [0x8C, al, ah] (.abs al ah) 4 s.y ∧
    StoreCompletes s (.styZpx d) [0x94, d] (.zpx d) 4 s.y ∧
    StoreCompletes s (.stzZp d) [0x64, d] (.zp d) 3 0 ∧
    StoreCompletes s (.stzZpx d) [0x74, d] (.zpx d) 4 0 ∧
    StoreCompletes s (.stzAbs al ah) [0x9C, al, ah] (.abs al ah) 4 0 ∧
    StoreCompletes s (.stzAbsx al ah) [0x9E, al, ah] (.absx al ah) 5 0

/-- R170 and R174; `addBin` and `addDec` have statements of their own. That with `BCD_INVALID = draw` and a nibble above 9 the result
and C are free is decision D8, which R172 names, in the form of log entry 6: the statement holds whatever the free values are. -/
def Obligations.AdcAddsWithCarry : Prop :=
  ∀ (s : State) (d al ah : Byte), Quiet s →
    let eff := fun v : Byte =>
      let b := addBin s.a v s.p.c
      if s.p.d = false then { s with a := b.r, p := { s.p with n := b.r.msb, v := b.v, z := b.r == 0, c := b.cout } }
      else if s.bcdOpen v then
        let r := Config.freeByte s.draws
        { s with
          a := r, draws := s.draws + 1
          p := { s.p with n := r.msb, v := b.v, z := r == 0, c := Config.freeBit s.draws } }
      else
        let r := addDec s.a v s.p.c
        { s with a := r.1, p := { s.p with n := r.1.msb, v := b.v, z := r.1 == 0, c := r.2 } }
    DecimalCompletes s (.adcZpxi d) [0x61, d] (.zpxi d) 6 eff ∧
    DecimalCompletes s (.adcZp d) [0x65, d] (.zp d) 3 eff ∧
    DecimalCompletes s (.adcImm d) [0x69, d] (.imm d) 2 eff ∧
    DecimalCompletes s (.adcAbs al ah) [0x6D, al, ah] (.abs al ah) 4 eff ∧
    DecimalCompletes s (.adcZpiy d) [0x71, d] (.zpiy d) (5 + Mode.penalty (.zpiy d) s) eff ∧
    DecimalCompletes s (.adcZpi d) [0x72, d] (.zpi d) 5 eff ∧
    DecimalCompletes s (.adcZpx d) [0x75, d] (.zpx d) 4 eff ∧
    DecimalCompletes s (.adcAbsy al ah) [0x79, al, ah] (.absy al ah) (4 + Mode.penalty (.absy al ah) s) eff ∧
    DecimalCompletes s (.adcAbsx al ah) [0x7D, al, ah] (.absx al ah) (4 + Mode.penalty (.absx al ah) s) eff

/-- R175 and R173; `addBin` and `subDec` have statements of their own. That with `BCD_INVALID = draw` and a nibble above 9 the result
and C are free is decision D8, which R173 names, in the form of log entry 6: the statement holds whatever the free values are. -/
def Obligations.SbcSubtractsWithCarry : Prop :=
  ∀ (s : State) (d al ah : Byte), Quiet s →
    let eff := fun v : Byte =>
      let b := addBin s.a (~~~v) s.p.c
      if s.p.d = false then { s with a := b.r, p := { s.p with n := b.r.msb, v := b.v, z := b.r == 0, c := b.cout } }
      else if s.bcdOpen v then
        let r := Config.freeByte s.draws
        { s with
          a := r, draws := s.draws + 1
          p := { s.p with n := r.msb, v := b.v, z := r == 0, c := Config.freeBit s.draws } }
      else
        let r := subDec s.a v s.p.c
        { s with a := r, p := { s.p with n := r.msb, v := b.v, z := r == 0, c := b.cout } }
    DecimalCompletes s (.sbcZpxi d) [0xE1, d] (.zpxi d) 6 eff ∧
    DecimalCompletes s (.sbcZp d) [0xE5, d] (.zp d) 3 eff ∧
    DecimalCompletes s (.sbcImm d) [0xE9, d] (.imm d) 2 eff ∧
    DecimalCompletes s (.sbcAbs al ah) [0xED, al, ah] (.abs al ah) 4 eff ∧
    DecimalCompletes s (.sbcZpiy d) [0xF1, d] (.zpiy d) (5 + Mode.penalty (.zpiy d) s) eff ∧
    DecimalCompletes s (.sbcZpi d) [0xF2, d] (.zpi d) 5 eff ∧
    DecimalCompletes s (.sbcZpx d) [0xF5, d] (.zpx d) 4 eff ∧
    DecimalCompletes s (.sbcAbsy al ah) [0xF9, al, ah] (.absy al ah) (4 + Mode.penalty (.absy al ah) s) eff ∧
    DecimalCompletes s (.sbcAbsx al ah) [0xFD, al, ah] (.absx al ah) (4 + Mode.penalty (.absx al ah) s) eff

/-- R176, R177 and R178. -/
def Obligations.LogicOperationsOnA : Prop :=
  ∀ (s : State) (d al ah : Byte), Quiet s →
    let eff := fun r : Byte => { s with a := r, p := { s.p with n := r.msb, z := r == 0 } }
    ReadCompletes s (.andZpxi d) [0x21, d] (.zpxi d) 6 (fun m => eff (s.a &&& m)) ∧
    ReadCompletes s (.andZp d) [0x25, d] (.zp d) 3 (fun m => eff (s.a &&& m)) ∧
    ReadCompletes s (.andImm d) [0x29, d] (.imm d) 2 (fun m => eff (s.a &&& m)) ∧
    ReadCompletes s (.andAbs al ah) [0x2D, al, ah] (.abs al ah) 4 (fun m => eff (s.a &&& m)) ∧
    ReadCompletes s (.andZpiy d) [0x31, d] (.zpiy d) (5 + Mode.penalty (.zpiy d) s) (fun m => eff (s.a &&& m)) ∧
    ReadCompletes s (.andZpi d) [0x32, d] (.zpi d) 5 (fun m => eff (s.a &&& m)) ∧
    ReadCompletes s (.andZpx d) [0x35, d] (.zpx d) 4 (fun m => eff (s.a &&& m)) ∧
    ReadCompletes s (.andAbsy al ah) [0x39, al, ah] (.absy al ah) (4 + Mode.penalty (.absy al ah) s) (fun m => eff (s.a &&& m)) ∧
    ReadCompletes s (.andAbsx al ah) [0x3D, al, ah] (.absx al ah) (4 + Mode.penalty (.absx al ah) s) (fun m => eff (s.a &&& m)) ∧
    ReadCompletes s (.oraZpxi d) [0x01, d] (.zpxi d) 6 (fun m => eff (s.a ||| m)) ∧
    ReadCompletes s (.oraZp d) [0x05, d] (.zp d) 3 (fun m => eff (s.a ||| m)) ∧
    ReadCompletes s (.oraImm d) [0x09, d] (.imm d) 2 (fun m => eff (s.a ||| m)) ∧
    ReadCompletes s (.oraAbs al ah) [0x0D, al, ah] (.abs al ah) 4 (fun m => eff (s.a ||| m)) ∧
    ReadCompletes s (.oraZpiy d) [0x11, d] (.zpiy d) (5 + Mode.penalty (.zpiy d) s) (fun m => eff (s.a ||| m)) ∧
    ReadCompletes s (.oraZpi d) [0x12, d] (.zpi d) 5 (fun m => eff (s.a ||| m)) ∧
    ReadCompletes s (.oraZpx d) [0x15, d] (.zpx d) 4 (fun m => eff (s.a ||| m)) ∧
    ReadCompletes s (.oraAbsy al ah) [0x19, al, ah] (.absy al ah) (4 + Mode.penalty (.absy al ah) s) (fun m => eff (s.a ||| m)) ∧
    ReadCompletes s (.oraAbsx al ah) [0x1D, al, ah] (.absx al ah) (4 + Mode.penalty (.absx al ah) s) (fun m => eff (s.a ||| m)) ∧
    ReadCompletes s (.eorZpxi d) [0x41, d] (.zpxi d) 6 (fun m => eff (s.a ^^^ m)) ∧
    ReadCompletes s (.eorZp d) [0x45, d] (.zp d) 3 (fun m => eff (s.a ^^^ m)) ∧
    ReadCompletes s (.eorImm d) [0x49, d] (.imm d) 2 (fun m => eff (s.a ^^^ m)) ∧
    ReadCompletes s (.eorAbs al ah) [0x4D, al, ah] (.abs al ah) 4 (fun m => eff (s.a ^^^ m)) ∧
    ReadCompletes s (.eorZpiy d) [0x51, d] (.zpiy d) (5 + Mode.penalty (.zpiy d) s) (fun m => eff (s.a ^^^ m)) ∧
    ReadCompletes s (.eorZpi d) [0x52, d] (.zpi d) 5 (fun m => eff (s.a ^^^ m)) ∧
    ReadCompletes s (.eorZpx d) [0x55, d] (.zpx d) 4 (fun m => eff (s.a ^^^ m)) ∧
    ReadCompletes s (.eorAbsy al ah) [0x59, al, ah] (.absy al ah) (4 + Mode.penalty (.absy al ah) s) (fun m => eff (s.a ^^^ m)) ∧
    ReadCompletes s (.eorAbsx al ah) [0x5D, al, ah] (.absx al ah) (4 + Mode.penalty (.absx al ah) s) (fun m => eff (s.a ^^^ m))

/-- R179, R180 and R181. -/
def Obligations.ComparesSetNzc : Prop :=
  ∀ (s : State) (d al ah : Byte), Quiet s →
    let eff := fun r m : Byte =>
      { s with p := { s.p with n := (r - m).msb, z := r - m == 0, c := decide (m.toNat ≤ r.toNat) } }
    ReadCompletes s (.cmpZpxi d) [0xC1, d] (.zpxi d) 6 (eff s.a) ∧
    ReadCompletes s (.cmpZp d) [0xC5, d] (.zp d) 3 (eff s.a) ∧
    ReadCompletes s (.cmpImm d) [0xC9, d] (.imm d) 2 (eff s.a) ∧
    ReadCompletes s (.cmpAbs al ah) [0xCD, al, ah] (.abs al ah) 4 (eff s.a) ∧
    ReadCompletes s (.cmpZpiy d) [0xD1, d] (.zpiy d) (5 + Mode.penalty (.zpiy d) s) (eff s.a) ∧
    ReadCompletes s (.cmpZpi d) [0xD2, d] (.zpi d) 5 (eff s.a) ∧
    ReadCompletes s (.cmpZpx d) [0xD5, d] (.zpx d) 4 (eff s.a) ∧
    ReadCompletes s (.cmpAbsy al ah) [0xD9, al, ah] (.absy al ah) (4 + Mode.penalty (.absy al ah) s) (eff s.a) ∧
    ReadCompletes s (.cmpAbsx al ah) [0xDD, al, ah] (.absx al ah) (4 + Mode.penalty (.absx al ah) s) (eff s.a) ∧
    ReadCompletes s (.cpxImm d) [0xE0, d] (.imm d) 2 (eff s.x) ∧
    ReadCompletes s (.cpxZp d) [0xE4, d] (.zp d) 3 (eff s.x) ∧
    ReadCompletes s (.cpxAbs al ah) [0xEC, al, ah] (.abs al ah) 4 (eff s.x) ∧
    ReadCompletes s (.cpyImm d) [0xC0, d] (.imm d) 2 (eff s.y) ∧
    ReadCompletes s (.cpyZp d) [0xC4, d] (.zp d) 3 (eff s.y) ∧
    ReadCompletes s (.cpyAbs al ah) [0xCC, al, ah] (.abs al ah) 4 (eff s.y)

/-- R182. -/
def Obligations.BitTestsFlags : Prop :=
  ∀ (s : State) (d al ah : Byte), Quiet s →
    let imm := fun m : Byte => { s with p := { s.p with z := s.a &&& m == 0 } }
    let mem := fun m : Byte => { s with p := { s.p with n := m.getLsbD 7, v := m.getLsbD 6, z := s.a &&& m == 0 } }
    ReadCompletes s (.bitZp d) [0x24, d] (.zp d) 3 mem ∧
    ReadCompletes s (.bitAbs al ah) [0x2C, al, ah] (.abs al ah) 4 mem ∧
    ReadCompletes s (.bitZpx d) [0x34, d] (.zpx d) 4 mem ∧
    ReadCompletes s (.bitAbsx al ah) [0x3C, al, ah] (.absx al ah) (4 + Mode.penalty (.absx al ah) s) mem ∧
    ReadCompletes s (.bitImm d) [0x89, d] (.imm d) 2 imm

/-- R192 and R193, with R190 for memory and R191 for the accumulator. -/
def Obligations.ShiftsAslLsr : Prop :=
  ∀ (s : State) (d al ah : Byte), Quiet s → s.mem.wf = true →
    let asl := fun v : Byte =>
      let r := BitVec.ofNat 8 (v.toNat * 2)
      (r, { s.p with n := r.msb, z := r == 0, c := v.getLsbD 7 })
    let lsr := fun v : Byte =>
      let r := BitVec.ofNat 8 (v.toNat / 2)
      (r, { s.p with n := false, z := r == 0, c := v.getLsbD 0 })
    let at_ := fun m : Mode => s.byteAt (m.ea s)
    RmwCompletes s (.aslZp d) [0x06, d] (.zp d) .rmwShift 5 (asl (at_ (.zp d))).1
      (asl (at_ (.zp d))).2 ∧
    ImpliedCompletes s .aslAcc 0x0A { s with a := (asl s.a).1, p := (asl s.a).2 } ∧
    RmwCompletes s (.aslAbs al ah) [0x0E, al, ah] (.abs al ah) .rmwShift 6 (asl (at_ (.abs al ah))).1
      (asl (at_ (.abs al ah))).2 ∧
    RmwCompletes s (.aslZpx d) [0x16, d] (.zpx d) .rmwShift 6 (asl (at_ (.zpx d))).1
      (asl (at_ (.zpx d))).2 ∧
    RmwCompletes s (.aslAbsx al ah) [0x1E, al, ah] (.absx al ah) .rmwShift (6 + Mode.penalty (.absx al ah) s) (asl (at_ (.absx al ah))).1
      (asl (at_ (.absx al ah))).2 ∧
    RmwCompletes s (.lsrZp d) [0x46, d] (.zp d) .rmwShift 5 (lsr (at_ (.zp d))).1
      (lsr (at_ (.zp d))).2 ∧
    ImpliedCompletes s .lsrAcc 0x4A { s with a := (lsr s.a).1, p := (lsr s.a).2 } ∧
    RmwCompletes s (.lsrAbs al ah) [0x4E, al, ah] (.abs al ah) .rmwShift 6 (lsr (at_ (.abs al ah))).1
      (lsr (at_ (.abs al ah))).2 ∧
    RmwCompletes s (.lsrZpx d) [0x56, d] (.zpx d) .rmwShift 6 (lsr (at_ (.zpx d))).1
      (lsr (at_ (.zpx d))).2 ∧
    RmwCompletes s (.lsrAbsx al ah) [0x5E, al, ah] (.absx al ah) .rmwShift (6 + Mode.penalty (.absx al ah) s) (lsr (at_ (.absx al ah))).1
      (lsr (at_ (.absx al ah))).2

/-- R194 and R195. -/
def Obligations.RotatesRolRor : Prop :=
  ∀ (s : State) (d al ah : Byte), Quiet s → s.mem.wf = true →
    let rol := fun v : Byte =>
      let r := BitVec.ofNat 8 (v.toNat * 2 + s.p.c.toNat)
      (r, { s.p with n := r.msb, z := r == 0, c := v.getLsbD 7 })
    let ror := fun v : Byte =>
      let r := BitVec.ofNat 8 (v.toNat / 2 + s.p.c.toNat * 128)
      (r, { s.p with n := r.msb, z := r == 0, c := v.getLsbD 0 })
    let at_ := fun m : Mode => s.byteAt (m.ea s)
    RmwCompletes s (.rolZp d) [0x26, d] (.zp d) .rmwShift 5 (rol (at_ (.zp d))).1
      (rol (at_ (.zp d))).2 ∧
    ImpliedCompletes s .rolAcc 0x2A { s with a := (rol s.a).1, p := (rol s.a).2 } ∧
    RmwCompletes s (.rolAbs al ah) [0x2E, al, ah] (.abs al ah) .rmwShift 6 (rol (at_ (.abs al ah))).1
      (rol (at_ (.abs al ah))).2 ∧
    RmwCompletes s (.rolZpx d) [0x36, d] (.zpx d) .rmwShift 6 (rol (at_ (.zpx d))).1
      (rol (at_ (.zpx d))).2 ∧
    RmwCompletes s (.rolAbsx al ah) [0x3E, al, ah] (.absx al ah) .rmwShift (6 + Mode.penalty (.absx al ah) s) (rol (at_ (.absx al ah))).1
      (rol (at_ (.absx al ah))).2 ∧
    RmwCompletes s (.rorZp d) [0x66, d] (.zp d) .rmwShift 5 (ror (at_ (.zp d))).1
      (ror (at_ (.zp d))).2 ∧
    ImpliedCompletes s .rorAcc 0x6A { s with a := (ror s.a).1, p := (ror s.a).2 } ∧
    RmwCompletes s (.rorAbs al ah) [0x6E, al, ah] (.abs al ah) .rmwShift 6 (ror (at_ (.abs al ah))).1
      (ror (at_ (.abs al ah))).2 ∧
    RmwCompletes s (.rorZpx d) [0x76, d] (.zpx d) .rmwShift 6 (ror (at_ (.zpx d))).1
      (ror (at_ (.zpx d))).2 ∧
    RmwCompletes s (.rorAbsx al ah) [0x7E, al, ah] (.absx al ah) .rmwShift (6 + Mode.penalty (.absx al ah) s) (ror (at_ (.absx al ah))).1
      (ror (at_ (.absx al ah))).2

/-- R196 and R197. -/
def Obligations.IncDecMemoryAndA : Prop :=
  ∀ (s : State) (d al ah : Byte), Quiet s → s.mem.wf = true →
    let inc := fun v : Byte => (v + 1, { s.p with n := (v + 1).msb, z := v + 1 == 0 })
    let dec := fun v : Byte => (v - 1, { s.p with n := (v - 1).msb, z := v - 1 == 0 })
    let at_ := fun m : Mode => s.byteAt (m.ea s)
    ImpliedCompletes s .incAcc 0x1A { s with a := (inc s.a).1, p := (inc s.a).2 } ∧
    RmwCompletes s (.incZp d) [0xE6, d] (.zp d) .rmwIncDec 5 (inc (at_ (.zp d))).1
      (inc (at_ (.zp d))).2 ∧
    RmwCompletes s (.incAbs al ah) [0xEE, al, ah] (.abs al ah) .rmwIncDec 6 (inc (at_ (.abs al ah))).1
      (inc (at_ (.abs al ah))).2 ∧
    RmwCompletes s (.incZpx d) [0xF6, d] (.zpx d) .rmwIncDec 6 (inc (at_ (.zpx d))).1
      (inc (at_ (.zpx d))).2 ∧
    RmwCompletes s (.incAbsx al ah) [0xFE, al, ah] (.absx al ah) .rmwIncDec 7 (inc (at_ (.absx al ah))).1
      (inc (at_ (.absx al ah))).2 ∧
    ImpliedCompletes s .decAcc 0x3A { s with a := (dec s.a).1, p := (dec s.a).2 } ∧
    RmwCompletes s (.decZp d) [0xC6, d] (.zp d) .rmwIncDec 5 (dec (at_ (.zp d))).1
      (dec (at_ (.zp d))).2 ∧
    RmwCompletes s (.decAbs al ah) [0xCE, al, ah] (.abs al ah) .rmwIncDec 6 (dec (at_ (.abs al ah))).1
      (dec (at_ (.abs al ah))).2 ∧
    RmwCompletes s (.decZpx d) [0xD6, d] (.zpx d) .rmwIncDec 6 (dec (at_ (.zpx d))).1
      (dec (at_ (.zpx d))).2 ∧
    RmwCompletes s (.decAbsx al ah) [0xDE, al, ah] (.absx al ah) .rmwIncDec 7 (dec (at_ (.absx al ah))).1
      (dec (at_ (.absx al ah))).2

/-- R198 to R201. -/
def Obligations.IncDecIndexRegisters : Prop :=
  ∀ s : State, Quiet s →
    let nz := fun v : Byte => { s.p with n := v.msb, z := v == 0 }
    ImpliedCompletes s .inx 0xE8 { s with x := s.x + 1, p := nz (s.x + 1) } ∧
    ImpliedCompletes s .iny 0xC8 { s with y := s.y + 1, p := nz (s.y + 1) } ∧
    ImpliedCompletes s .dex 0xCA { s with x := s.x - 1, p := nz (s.x - 1) } ∧
    ImpliedCompletes s .dey 0x88 { s with y := s.y - 1, p := nz (s.y - 1) }

/-- R202 and R203. -/
def Obligations.TsbTrbTestAndModify : Prop :=
  ∀ (s : State) (d al ah : Byte), Quiet s → s.mem.wf = true →
    let tsb := fun v : Byte => (v ||| s.a, { s.p with z := s.a &&& v == 0 })
    let trb := fun v : Byte => (v &&& ~~~s.a, { s.p with z := s.a &&& v == 0 })
    let at_ := fun m : Mode => s.byteAt (m.ea s)
    RmwCompletes s (.tsbZp d) [0x04, d] (.zp d) .rmwShift 5 (tsb (at_ (.zp d))).1
      (tsb (at_ (.zp d))).2 ∧
    RmwCompletes s (.tsbAbs al ah) [0x0C, al, ah] (.abs al ah) .rmwShift 6 (tsb (at_ (.abs al ah))).1
      (tsb (at_ (.abs al ah))).2 ∧
    RmwCompletes s (.trbZp d) [0x14, d] (.zp d) .rmwShift 5 (trb (at_ (.zp d))).1
      (trb (at_ (.zp d))).2 ∧
    RmwCompletes s (.trbAbs al ah) [0x1C, al, ah] (.abs al ah) .rmwShift 6 (trb (at_ (.abs al ah))).1
      (trb (at_ (.abs al ah))).2

/-- R204 and R205; the opcodes are those of R95. -/
def Obligations.RmbSmbChangeOneBit : Prop :=
  ∀ (s : State) (d : Byte), Quiet s → s.mem.wf = true →
    let old := s.byteAt (zext d)
    RmwCompletes s (.rmb0 d) [0x07, d] (.zp d) .rmwShift 5 (old &&& ~~~0x01) s.p ∧
    RmwCompletes s (.rmb1 d) [0x17, d] (.zp d) .rmwShift 5 (old &&& ~~~0x02) s.p ∧
    RmwCompletes s (.rmb2 d) [0x27, d] (.zp d) .rmwShift 5 (old &&& ~~~0x04) s.p ∧
    RmwCompletes s (.rmb3 d) [0x37, d] (.zp d) .rmwShift 5 (old &&& ~~~0x08) s.p ∧
    RmwCompletes s (.rmb4 d) [0x47, d] (.zp d) .rmwShift 5 (old &&& ~~~0x10) s.p ∧
    RmwCompletes s (.rmb5 d) [0x57, d] (.zp d) .rmwShift 5 (old &&& ~~~0x20) s.p ∧
    RmwCompletes s (.rmb6 d) [0x67, d] (.zp d) .rmwShift 5 (old &&& ~~~0x40) s.p ∧
    RmwCompletes s (.rmb7 d) [0x77, d] (.zp d) .rmwShift 5 (old &&& ~~~0x80) s.p ∧
    RmwCompletes s (.smb0 d) [0x87, d] (.zp d) .rmwShift 5 (old ||| 0x01) s.p ∧
    RmwCompletes s (.smb1 d) [0x97, d] (.zp d) .rmwShift 5 (old ||| 0x02) s.p ∧
    RmwCompletes s (.smb2 d) [0xA7, d] (.zp d) .rmwShift 5 (old ||| 0x04) s.p ∧
    RmwCompletes s (.smb3 d) [0xB7, d] (.zp d) .rmwShift 5 (old ||| 0x08) s.p ∧
    RmwCompletes s (.smb4 d) [0xC7, d] (.zp d) .rmwShift 5 (old ||| 0x10) s.p ∧
    RmwCompletes s (.smb5 d) [0xD7, d] (.zp d) .rmwShift 5 (old ||| 0x20) s.p ∧
    RmwCompletes s (.smb6 d) [0xE7, d] (.zp d) .rmwShift 5 (old ||| 0x40) s.p ∧
    RmwCompletes s (.smb7 d) [0xF7, d] (.zp d) .rmwShift 5 (old ||| 0x80) s.p

/-- R222 to R225 with the template of R220. -/
def Obligations.PushesStoreThenDecrement : Prop :=
  ∀ s : State, Quiet s → s.mem.wf = true →
    PushCompletes s .pha 0x48 s.a ∧ PushCompletes s .phx 0xDA s.x ∧ PushCompletes s .phy 0x5A s.y ∧
    PushCompletes s .php 0x08 (s.p.statusByte true)

/-- R226 to R228 with the template of R221. -/
def Obligations.PullsIncrementThenRead : Prop :=
  ∀ s : State, Quiet s →
    let nz := fun v : Byte => { s.p with n := v.msb, z := v == 0 }
    PullCompletes s .pla 0x68 (fun v => { s with a := v, p := nz v }) ∧
    PullCompletes s .plx 0xFA (fun v => { s with x := v, p := nz v }) ∧
    PullCompletes s .ply 0x7A (fun v => { s with y := v, p := nz v })

/-- R229. -/
def Obligations.PlpRestoresStatus : Prop :=
  ∀ s : State, Quiet s →
    PullCompletes s .plp 0x28 (fun v => { s with p :=
      { n := v.getLsbD 7, v := v.getLsbD 6, d := v.getLsbD 3, i := v.getLsbD 2, z := v.getLsbD 1, c := v.getLsbD 0 } }) ∧
    Commits s .plp (if s.pendNmi then .nmi else if s.irqLine && !s.p.i then .irq else s.committed)

/-- R231 to R236. -/
def Obligations.TransfersCopyRegisters : Prop :=
  ∀ s : State, Quiet s →
    let nz := fun v : Byte => { s.p with n := v.msb, z := v == 0 }
    ImpliedCompletes s .tax 0xAA { s with x := s.a, p := nz s.a } ∧
    ImpliedCompletes s .tay 0xA8 { s with y := s.a, p := nz s.a } ∧
    ImpliedCompletes s .txa 0x8A { s with a := s.x, p := nz s.x } ∧
    ImpliedCompletes s .tya 0x98 { s with a := s.y, p := nz s.y } ∧
    ImpliedCompletes s .tsx 0xBA { s with x := s.sp, p := nz s.sp } ∧
    ImpliedCompletes s .txs 0x9A { s with sp := s.x }

/-- R237 to R244. For `CLI` and `SEI` see also `CliLetsOneMoreInstructionRun`. -/
def Obligations.FlagInstructionsSetOneFlag : Prop :=
  ∀ s : State, Quiet s →
    let old := if s.pendNmi then Commit.nmi else if s.irqLine && !s.p.i then .irq else s.committed
    ImpliedCompletes s .clc 0x18 { s with p := { s.p with c := false } } ∧
    ImpliedCompletes s .sec 0x38 { s with p := { s.p with c := true } } ∧
    ImpliedCompletes s .cli 0x58 { s with p := { s.p with i := false } } ∧ Commits s .cli old ∧
    ImpliedCompletes s .sei 0x78 { s with p := { s.p with i := true } } ∧ Commits s .sei old ∧
    ImpliedCompletes s .cld 0xD8 { s with p := { s.p with d := false } } ∧
    ImpliedCompletes s .sed 0xF8 { s with p := { s.p with d := true } } ∧
    ImpliedCompletes s .clv 0xB8 { s with p := { s.p with v := false } }

/-- R260, R261 and R262 with the resolvers R134 and R135. -/
def Obligations.JumpsLoadPc : Prop :=
  ∀ (s : State) (al ah : Byte), Quiet s →
    let ptr := word ah al
    let ptrx := ptr + zext s.x
    Completes s (.jmpAbs al ah) [0x4C, al, ah] [.read s.pc, .read (s.pc + 1), .read (s.pc + 2)] 3
      { s with pc := ptr } ∧
    Completes s (.jmpAbsi al ah) [0x6C, al, ah]
      [.read s.pc, .read (s.pc + 1), .read (s.pc + 2), .read (s.pc + 2), .read ptr, .read (ptr + 1)] 6
      { s with pc := s.pointerAt ptr } ∧
    Completes s (.jmpAbsxi al ah) [0x7C, al, ah]
      [.read s.pc, .read (s.pc + 1), .read (s.pc + 2), .read (s.pc + 2), .read ptrx, .read (ptrx + 1)] 6
      { s with pc := s.pointerAt ptrx }

/-- R263, including that the third byte is read after the pushes. -/
def Obligations.JsrPushesReturnAddress : Prop :=
  ∀ (s : State) (al ah : Byte), Quiet s → s.mem.wf = true →
    let ret := s.pc + 2
    let m := (s.mem.write s.stackAddr.toNat (hi8 ret)).write (s.stackBelow 1).toNat (lo8 ret)
    Completes s (.jsr al ah) [0x20, al, ah]
      [.read s.pc, .read (s.pc + 1), .read s.stackAddr, .write s.stackAddr (hi8 ret),
        .write (s.stackBelow 1) (lo8 ret), .read ret] 6
      { s with mem := m, sp := s.sp - 2, pc := word (m.read ret.toNat) al } ∧
    m.read s.stackAddr.toNat = hi8 ret ∧ m.read (s.stackBelow 1).toNat = lo8 ret ∧
    OnlyBytesChange s m [s.stackAddr, s.stackBelow 1]

/-- R264. -/
def Obligations.RtsReturnsPastThePulledAddress : Prop :=
  ∀ s : State, Quiet s →
    let ret := word (s.byteAt (s.stackAbove 2)) (s.byteAt (s.stackAbove 1))
    Completes s .rts [0x60]
      [.read s.pc, .read (s.pc + 1), .read s.stackAddr, .read (s.stackAbove 1), .read (s.stackAbove 2), .read ret] 6
      { s with sp := s.sp + 2, pc := ret + 1 }

/-- R265. -/
def Obligations.RtiRestoresStatusAndPc : Prop :=
  ∀ s : State, Quiet s →
    let v := s.byteAt (s.stackAbove 1)
    Completes s .rti [0x40]
      [.read s.pc, .read (s.pc + 1), .read s.stackAddr, .read (s.stackAbove 1), .read (s.stackAbove 2),
        .read (s.stackAbove 3)] 6
      { s with
        sp := s.sp + 3, pc := word (s.byteAt (s.stackAbove 3)) (s.byteAt (s.stackAbove 2))
        p := { n := v.getLsbD 7, v := v.getLsbD 6, d := v.getLsbD 3
               i := v.getLsbD 2, z := v.getLsbD 1, c := v.getLsbD 0 } } ∧
    Commits s .rti (if s.pendNmi then .nmi else if s.irqLine && !v.getLsbD 2 then .irq else s.committed)

/-- R266, not suppressed; for the suppressed form see `HooksSuppressBrkAndStp`. -/
def Obligations.BrkTakesTheSoftwareInterrupt : Prop :=
  ∀ (s : State) (sig : Byte), Quiet s → s.mem.wf = true →
    let ret := s.pc + 2
    let p := s.p.statusByte true
    let hook : List HostCall := if s.hooks.brk then [.brkHook sig] else []
    Completes s (.brk sig) [0x00, sig] ([.read s.pc, .read (s.pc + 1)] ++ hook ++ s.interruptCalls ret p 0xFFFE) 7
      (s.interrupted ret p 0xFFFE) ∧
    Commits s (.brk sig) (if s.pendNmi then .nmi else if s.irqLine && !s.p.i then .irq else s.committed) ∧
    (s.interruptMem ret p).read s.stackAddr.toNat = hi8 ret ∧
    (s.interruptMem ret p).read (s.stackBelow 1).toNat = lo8 ret ∧
    (s.interruptMem ret p).read (s.stackBelow 2).toNat = p ∧
    OnlyBytesChange s (s.interruptMem ret p) [s.stackAddr, s.stackBelow 1, s.stackBelow 2]

/-- R268 to R276 with R136 and R267. -/
def Obligations.BranchesFollowTheirFlag : Prop :=
  ∀ (s : State) (d : Byte), Quiet s →
    BranchCompletes s (.bpl d) 0x10 d (!s.p.n) ∧
    BranchCompletes s (.bmi d) 0x30 d s.p.n ∧
    BranchCompletes s (.bvc d) 0x50 d (!s.p.v) ∧
    BranchCompletes s (.bvs d) 0x70 d s.p.v ∧
    BranchCompletes s (.bcc d) 0x90 d (!s.p.c) ∧
    BranchCompletes s (.bcs d) 0xB0 d s.p.c ∧
    BranchCompletes s (.bne d) 0xD0 d (!s.p.z) ∧
    BranchCompletes s (.beq d) 0xF0 d s.p.z ∧
    BranchCompletes s (.bra d) 0x80 d true

/-- R277 and R278 with R137. -/
def Obligations.BitBranchesTestOneBit : Prop :=
  ∀ (s : State) (zp rel : Byte), Quiet s →
    let m := s.byteAt (zext zp)
    BitBranchCompletes s (.bbr0 zp rel) 0x0F zp rel (!m.getLsbD 0) ∧
    BitBranchCompletes s (.bbr1 zp rel) 0x1F zp rel (!m.getLsbD 1) ∧
    BitBranchCompletes s (.bbr2 zp rel) 0x2F zp rel (!m.getLsbD 2) ∧
    BitBranchCompletes s (.bbr3 zp rel) 0x3F zp rel (!m.getLsbD 3) ∧
    BitBranchCompletes s (.bbr4 zp rel) 0x4F zp rel (!m.getLsbD 4) ∧
    BitBranchCompletes s (.bbr5 zp rel) 0x5F zp rel (!m.getLsbD 5) ∧
    BitBranchCompletes s (.bbr6 zp rel) 0x6F zp rel (!m.getLsbD 6) ∧
    BitBranchCompletes s (.bbr7 zp rel) 0x7F zp rel (!m.getLsbD 7) ∧
    BitBranchCompletes s (.bbs0 zp rel) 0x8F zp rel (m.getLsbD 0) ∧
    BitBranchCompletes s (.bbs1 zp rel) 0x9F zp rel (m.getLsbD 1) ∧
    BitBranchCompletes s (.bbs2 zp rel) 0xAF zp rel (m.getLsbD 2) ∧
    BitBranchCompletes s (.bbs3 zp rel) 0xBF zp rel (m.getLsbD 3) ∧
    BitBranchCompletes s (.bbs4 zp rel) 0xCF zp rel (m.getLsbD 4) ∧
    BitBranchCompletes s (.bbs5 zp rel) 0xDF zp rel (m.getLsbD 5) ∧
    BitBranchCompletes s (.bbs6 zp rel) 0xEF zp rel (m.getLsbD 6) ∧
    BitBranchCompletes s (.bbs7 zp rel) 0xFF zp rel (m.getLsbD 7)

/-- R300 and R303 to R308. -/
def Obligations.NopAndReservedOpcodesOnlyAdvance : Prop :=
  ∀ (s : State) (d al ah : Byte), Quiet s →
    let old := if s.pendNmi then Commit.nmi else if s.irqLine && !s.p.i then .irq else s.committed
    let one := fun (i : Instr) (opcode : Byte) =>
      Completes s i [opcode] [.read s.pc] 1 (s.after [opcode]) ∧ Commits s i s.committed
    let two := fun (i : Instr) (opcode : Byte) =>
      Completes s i [opcode, d] [.read s.pc, .read (s.pc + 1)] 2 (s.after [opcode, d])
    ImpliedCompletes s .nop 0xEA s ∧ Commits s .nop old ∧
    two (.nop02 d) 0x02 ∧
    one .nop03 0x03 ∧
    one .nop0B 0x0B ∧
    one .nop13 0x13 ∧
    one .nop1B 0x1B ∧
    two (.nop22 d) 0x22 ∧
    one .nop23 0x23 ∧
    one .nop2B 0x2B ∧
    one .nop33 0x33 ∧
    one .nop3B 0x3B ∧
    two (.nop42 d) 0x42 ∧
    one .nop43 0x43 ∧
    ReadCompletes s (.nop44 d) [0x44, d] (.zp d) 3 (fun _ => s) ∧
    one .nop4B 0x4B ∧
    one .nop53 0x53 ∧
    ReadCompletes s (.nop54 d) [0x54, d] (.zpx d) 4 (fun _ => s) ∧
    one .nop5B 0x5B ∧
    Completes s (.nop5C al ah) [0x5C, al, ah]
      [.read s.pc, .read (s.pc + 1), .read (s.pc + 2), .read (word 0xFF al), .read 0xFFFF, .read 0xFFFF, .read 0xFFFF,
        .read 0xFFFF] 8 (s.after [0x5C, al, ah]) ∧
    two (.nop62 d) 0x62 ∧
    one .nop63 0x63 ∧
    one .nop6B 0x6B ∧
    one .nop73 0x73 ∧
    one .nop7B 0x7B ∧
    two (.nop82 d) 0x82 ∧
    one .nop83 0x83 ∧
    one .nop8B 0x8B ∧
    one .nop93 0x93 ∧
    one .nop9B 0x9B ∧
    one .nopA3 0xA3 ∧
    one .nopAB 0xAB ∧
    one .nopB3 0xB3 ∧
    one .nopBB 0xBB ∧
    two (.nopC2 d) 0xC2 ∧
    one .nopC3 0xC3 ∧
    one .nopD3 0xD3 ∧
    ReadCompletes s (.nopD4 d) [0xD4, d] (.zpx d) 4 (fun _ => s) ∧
    ReadCompletes s (.nopDC al ah) [0xDC, al, ah] (.abs al ah) 4 (fun _ => s) ∧
    two (.nopE2 d) 0xE2 ∧
    one .nopE3 0xE3 ∧
    one .nopEB 0xEB ∧
    one .nopF3 0xF3 ∧
    ReadCompletes s (.nopF4 d) [0xF4, d] (.zpx d) 4 (fun _ => s) ∧
    one .nopFB 0xFB ∧
    ReadCompletes s (.nopFC al ah) [0xFC, al, ah] (.abs al ah) 4 (fun _ => s)

/-- R301, from a boundary where nothing is committed (R334 line 7). -/
def Obligations.WaiWaitsUnlessARequestIsUnmasked : Prop :=
  ∀ s : State, Quiet s → s.committed = .none → s.execState = .running →
    let awake := s.pendReset || s.pendNmi || (s.irqLine && !s.p.i)
    Completes s .wai [0xCB] [.read s.pc, .read (s.pc + 1), .read (s.pc + 1)] 3
      ({ s with execState := if awake then .running else .waiting }.after [0xCB]) ∧
    Commits s .wai (if s.pendNmi then .nmi else if s.irqLine && !s.p.i then .irq else .none)

/-- R302, not suppressed; for the suppressed form see `HooksSuppressBrkAndStp`. The last clause, that nothing stays committed, is the
model's choice (log entry 8, DEDUCED): R331 read alone would commit. -/
def Obligations.StpStopsTheCore : Prop :=
  ∀ s : State, Quiet s →
    Completes s .stp [0xDB]
      ([.read s.pc, .read (s.pc + 1), .read (s.pc + 1)] ++ if s.hooks.stp then [.stpHook] else []) 3
      ({ s with execState := .stopped }.after [0xDB]) ∧
    Commits s .stp .none

/-- R331 to R333 over all opcodes but `STP`. That `STP` leaves nothing committed, a clause of `commitAfter`, is the model's choice
(log entry 8, DEDUCED): R331 to R333 do not say it. -/
def Obligations.InstructionSampleCommits : Prop :=
  ∀ (i : Instr) (s : State), Quiet s → Commits s i (commitAfter i s)

/-- R240 and the first row of R381. A one-cycle opcode, `RTI` and `STP` as the second instruction are left out: what they leave
committed differs, see `NopAndReservedOpcodesOnlyAdvance`, `RtiRestoresStatusAndPc` and `StpStopsTheCore`. -/
def Obligations.CliLetsOneMoreInstructionRun : Prop :=
  ∀ (s : State) (i : Instr), AtInstruction s → Quiet s → s.irqLine = true → s.p.i = true → s.pendNmi = false →
    BytesAtPc s [0x58] → isOneCycle i = false → i ≠ .rti → i ≠ .stp → BytesAtPc { s with pc := s.pc + 1 } (encode i) →
    ∃ t u, step s = .next t ∧ t.committed = .none ∧ t.p.i = false ∧ t.pc = s.pc + 1 ∧
      step t = exec i t ∧ exec i t = .next u ∧ u.committed = .irq ∧ step u = complete (enter .irq u)

/-- R336 "The saved `PC` is exactly the address at which execution resumes after `RTI`", R339. -/
def Obligations.ReturnResumesTheInterruptedProgram : Prop :=
  ∀ s t u : State, Quiet s → NoStallOrReset s → s.execState = .running → s.committed ≠ .none → s.mem.wf = true →
    step s = .next t → Quiet u → u.sp = t.sp →
    (∀ n : Byte, n ∈ [1, 2, 3] → u.byteAt (t.stackAbove n) = t.byteAt (t.stackAbove n)) →
    ∃ w, exec .rti u = .next w ∧ w.pc = s.pc ∧ w.sp = s.sp ∧ w.p = s.p

/-- R410, R266 and R302 when the hook suppresses; the host script holds that one answer and nothing else. -/
def Obligations.HooksSuppressBrkAndStp : Prop :=
  ∀ (s : State) (sig : Byte),
    let sampled := if s.pendNmi then Commit.nmi else if s.irqLine && !s.p.i then .irq else s.committed
    (s.hooks.brk = true → s.script = [(.cycle (s.cycleCount + 2), .suppress)] →
      Completes s (.brk sig) [0x00, sig] [.read s.pc, .read (s.pc + 1), .brkHook sig] 2 (s.after [0x00, sig]) ∧
      Commits s (.brk sig) sampled) ∧
    (s.hooks.stp = true → s.script = [(.cycle (s.cycleCount + 3), .suppress)] →
      Completes s .stp [0xDB] [.read s.pc, .read (s.pc + 1), .read (s.pc + 1), .stpHook] 3 (s.after [0xDB]) ∧
      Commits s .stp sampled)

/-- R331: the sample falls at the end of cycle n-1, after that cycle's access; R404: an event in the access of cycle k is visible at the end of cycle k; R63: the host answers reads. -/
def Obligations.RequestInTheLastCycleIsSampledLater : Prop :=
  ∀ (s : State) (al ah : Byte) (k : Nat) (v : Byte), s.committed = .none → s.pendNmi = false → s.irqLine = false →
    1 ≤ k → k ≤ 6 → s.mem.wf = true → s.params.rmwDummy = .writeOld →
    (s.script = [(.cycle (s.cycleCount + k), .assertNmi)] →
      ∃ t, exec (.incAbs al ah) s = .next t ∧ t.pendNmi = true ∧ t.committed = if k ≤ 5 then .nmi else .none) ∧
    (s.script = [(.cycle (s.cycleCount + 4), .answer v)] →
      ∃ t, exec (.incAbs al ah) s = .next t ∧ t.byteAt (word ah al) = v + 1)

/-- R322 to R324, R33, R405, R408, R409 and R415. The refusal of a setter mid-instruction is the spec's decision D23. -/
def Obligations.HostEventsAndSetters : Prop :=
  ∀ (s : State) (n : Nat) (v : Byte) (w : Word),
    s.requestReset = { s with pendReset := true } ∧ s.assertNmi = { s with pendNmi := true } ∧
    s.assertIrq = { s with irqLine := true } ∧ s.cancelIrq = { s with irqLine := false } ∧
    s.requestBreak = { s with breakReq := true } ∧ s.requestStall n = { s with stall := s.stall + n } ∧
    s.setOverflowFlag = { s with p := { s.p with v := true } } ∧
    (s.isWaiting = true ↔ s.execState = .waiting) ∧ (s.isStopped = true ↔ s.execState = .stopped) ∧
    (s.stall = 0 → step s.requestReset = complete (resetSequence s.requestReset)) ∧
    (s.ctx.active = false → s.hostSetA v = .next { s with a := v } ∧ s.hostSetX v = .next { s with x := v } ∧
      s.hostSetY v = .next { s with y := v } ∧ s.hostSetS v = .next { s with sp := v } ∧
      s.hostSetPc w = .next { s with pc := w } ∧ s.hostSetStatus v = .next (s.setStatus v)) ∧
    (s.ctx.active = true → s.hostSetA v = .refused .setterMidInstruction ∧
      s.hostSetX v = .refused .setterMidInstruction ∧ s.hostSetY v = .refused .setterMidInstruction ∧
      s.hostSetS v = .refused .setterMidInstruction ∧ s.hostSetPc w = .refused .setterMidInstruction ∧
      s.hostSetStatus v = .refused .setterMidInstruction)
end

