-- ==== Sys2Proof/Laws/Memory.lean ====
section
/-! SUPPORT. Memory: reading after writing, and that writing keeps the canonical form. -/

namespace Sys2Proof.Machine.Memory

@[simp] theorem read_nil (a : Nat) : Memory.read [] a = Config.openBus := rfl

/-- A write leaves every other address alone. -/
theorem read_write_other (m : Memory) {a b : Nat} (v : Byte) (h : b ≠ a) :
    (Memory.write m a v).read b = m.read b := by
  induction m with
  | nil => simp only [Memory.write]; split <;> simp_all [Memory.read, Ne.symm h]
  | cons e rest ih =>
    obtain ⟨k, w⟩ := e
    simp only [Memory.write]
    split
    · split <;> simp_all [Memory.read, Ne.symm h]
    · split
      · subst_vars; split <;> simp_all [Memory.read, Ne.symm h]
      · simp_all [Memory.read]

/-- Below the lowest listed address everything reads as open bus. -/
theorem read_of_wfAbove {b : Nat} {m : Memory} (h : wfAbove (some b) m = true) {a : Nat} (ha : a ≤ b) :
    m.read a = Config.openBus := by
  induction m generalizing b with
  | nil => rfl
  | cons e rest ih =>
    obtain ⟨k, w⟩ := e
    simp only [wfAbove, Bool.and_eq_true, decide_eq_true_eq] at h
    rw [Memory.read, if_neg (by omega), ih h.2 (by omega)]

theorem wfAbove_mono {lo lo' : Option Nat} {m : Memory} (h : wfAbove lo m = true)
    (hle : ∀ b', lo' = some b' → ∃ b, lo = some b ∧ b' ≤ b) : wfAbove lo' m = true := by
  cases m with
  | nil => rfl
  | cons e rest =>
    obtain ⟨k, w⟩ := e
    simp only [wfAbove, Bool.and_eq_true, decide_eq_true_eq] at h ⊢
    refine ⟨⟨⟨?_, h.1.1.2⟩, h.1.2⟩, h.2⟩
    cases lo' with
    | none => rfl
    | some b' =>
      obtain ⟨b, rfl, hb⟩ := hle b' rfl
      have := h.1.1.1
      simp only [decide_eq_true_eq] at this ⊢
      omega

/-- Every write keeps the canonical form above a bound below the address. -/
theorem wfAbove_write {lo : Option Nat} {m : Memory} {a : Nat} (v : Byte) (h : wfAbove lo m = true)
    (ha : a < 65536) (hlo : ∀ b, lo = some b → b < a) : wfAbove lo (Memory.write m a v) = true := by
  induction m generalizing lo with
  | nil =>
    simp only [Memory.write]
    split
    · rfl
    · simp only [wfAbove, Bool.and_true, Bool.and_eq_true, decide_eq_true_eq]
      refine ⟨⟨?_, ha⟩, by assumption⟩
      cases lo with
      | none => rfl
      | some b => simpa using hlo b rfl
  | cons e rest ih =>
    obtain ⟨k, w⟩ := e
    have h' := h
    simp only [wfAbove, Bool.and_eq_true, decide_eq_true_eq] at h'
    simp only [Memory.write]
    split
    · split
      · exact h
      · simp only [wfAbove, Bool.and_eq_true, decide_eq_true_eq]
        refine ⟨⟨⟨?_, ha⟩, by assumption⟩, ⟨⟨by assumption, h'.1.1.2⟩, h'.1.2⟩, h'.2⟩
        cases lo with
        | none => rfl
        | some b => simpa using hlo b rfl
    · split
      · subst_vars
        split
        · refine wfAbove_mono h'.2 fun b' hb' => ⟨_, rfl, ?_⟩
          have := hlo b' hb'; omega
        · simp only [wfAbove, Bool.and_eq_true, decide_eq_true_eq]
          exact ⟨⟨⟨h'.1.1.1, ha⟩, by assumption⟩, h'.2⟩
      · simp only [wfAbove, Bool.and_eq_true, decide_eq_true_eq]
        refine ⟨⟨⟨h'.1.1.1, h'.1.1.2⟩, h'.1.2⟩, ih h'.2 ?_⟩
        rintro b ⟨⟩
        omega

/-- Every memory write keeps the canonical form. -/
theorem wf_write {m : Memory} {a : Nat} (v : Byte) (h : m.wf = true) (ha : a < 65536) :
    (Memory.write m a v).wf = true :=
  wfAbove_write v h ha (by simp)

theorem wf_write_word {m : Memory} (a : Word) (v : Byte) (h : m.wf = true) :
    (Memory.write m a.toNat v).wf = true :=
  wf_write v h a.isLt

theorem read_write_same_above {lo : Option Nat} {m : Memory} (a : Nat) (v : Byte) (h : wfAbove lo m = true) :
    (Memory.write m a v).read a = v := by
  induction m generalizing lo with
  | nil => simp only [Memory.write]; split <;> simp_all [Memory.read]
  | cons e rest ih =>
    obtain ⟨k, w⟩ := e
    simp only [wfAbove, Bool.and_eq_true, decide_eq_true_eq] at h
    simp only [Memory.write]
    split
    · split
      · subst_vars
        rw [Memory.read, if_neg (by omega), read_of_wfAbove h.2 (by omega)]
      · simp [Memory.read]
    · split
      · subst_vars
        split
        · subst_vars; exact read_of_wfAbove h.2 (Nat.le_refl _)
        · simp [Memory.read]
      · rw [Memory.read, if_neg (by omega), ih h.2]

/-- A read after a write to the same address gives the byte written. -/
theorem read_write_same {m : Memory} (a : Nat) (v : Byte) (h : m.wf = true) : (Memory.write m a v).read a = v :=
  read_write_same_above a v h

theorem write_write_above {lo : Option Nat} {m : Memory} (a : Nat) (v w : Byte) (h : wfAbove lo m = true) :
    (Memory.write m a v).write a w = m.write a w := by
  induction m generalizing lo with
  | nil =>
    by_cases hv : v = Config.openBus <;> by_cases hw : w = Config.openBus <;> simp [Memory.write, hv, hw]
  | cons e rest ih =>
    obtain ⟨k, u⟩ := e
    simp only [wfAbove, Bool.and_eq_true, decide_eq_true_eq] at h
    rcases Nat.lt_trichotomy a k with hk | hk | hk
    · by_cases hv : v = Config.openBus <;> by_cases hw : w = Config.openBus <;> simp [Memory.write, hv, hw, hk]
    · subst hk
      by_cases hv : v = Config.openBus <;> by_cases hw : w = Config.openBus <;> simp [Memory.write, hv, hw]
      all_goals
        cases rest with
        | nil => simp [Memory.write, hw]
        | cons e' rest' =>
          obtain ⟨k', u'⟩ := e'
          simp only [wfAbove, Bool.and_eq_true, decide_eq_true_eq] at h
          simp [Memory.write, h.2.1.1.1, hw]
    · have h1 : ¬ a < k := by omega
      have h2 : ¬ a = k := by omega
      simp [Memory.write, h1, h2, ih h.2]

/-- The second of two writes to one address is the one that counts. -/
theorem write_write {m : Memory} (a : Nat) (v w : Byte) (h : m.wf = true) :
    (Memory.write m a v).write a w = m.write a w :=
  write_write_above a v w h

end Sys2Proof.Machine.Memory
end

