-- ==== Sys2Proof/Laws/State.lean ====
section
/-! SUPPORT. What each field is after each update: one lemma per field per update, all true by `rfl`, so that
no proof unfolds an update. -/

namespace Sys2Proof.Machine.State

variable (s : State)

@[simp] theorem setA_a (v : Byte) : (s.setA v).a = v := rfl
@[simp] theorem setA_x (v : Byte) : (s.setA v).x = s.x := rfl
@[simp] theorem setA_y (v : Byte) : (s.setA v).y = s.y := rfl
@[simp] theorem setA_sp (v : Byte) : (s.setA v).sp = s.sp := rfl
@[simp] theorem setA_pc (v : Byte) : (s.setA v).pc = s.pc := rfl
@[simp] theorem setA_p (v : Byte) : (s.setA v).p = s.p := rfl
@[simp] theorem setA_execState (v : Byte) : (s.setA v).execState = s.execState := rfl
@[simp] theorem setA_pendReset (v : Byte) : (s.setA v).pendReset = s.pendReset := rfl
@[simp] theorem setA_pendNmi (v : Byte) : (s.setA v).pendNmi = s.pendNmi := rfl
@[simp] theorem setA_irqLine (v : Byte) : (s.setA v).irqLine = s.irqLine := rfl
@[simp] theorem setA_committed (v : Byte) : (s.setA v).committed = s.committed := rfl
@[simp] theorem setA_cycleCount (v : Byte) : (s.setA v).cycleCount = s.cycleCount := rfl
@[simp] theorem setA_instrCount (v : Byte) : (s.setA v).instrCount = s.instrCount := rfl
@[simp] theorem setA_stall (v : Byte) : (s.setA v).stall = s.stall := rfl
@[simp] theorem setA_breakReq (v : Byte) : (s.setA v).breakReq = s.breakReq := rfl
@[simp] theorem setA_ctx (v : Byte) : (s.setA v).ctx = s.ctx := rfl
@[simp] theorem setA_hooks (v : Byte) : (s.setA v).hooks = s.hooks := rfl
@[simp] theorem setA_params (v : Byte) : (s.setA v).params = s.params := rfl
@[simp] theorem setA_mem (v : Byte) : (s.setA v).mem = s.mem := rfl
@[simp] theorem setA_trace (v : Byte) : (s.setA v).trace = s.trace := rfl
@[simp] theorem setA_script (v : Byte) : (s.setA v).script = s.script := rfl
@[simp] theorem setA_draws (v : Byte) : (s.setA v).draws = s.draws := rfl
@[simp] theorem setA_resetSeen (v : Byte) : (s.setA v).resetSeen = s.resetSeen := rfl

@[simp] theorem setX_a (v : Byte) : (s.setX v).a = s.a := rfl
@[simp] theorem setX_x (v : Byte) : (s.setX v).x = v := rfl
@[simp] theorem setX_y (v : Byte) : (s.setX v).y = s.y := rfl
@[simp] theorem setX_sp (v : Byte) : (s.setX v).sp = s.sp := rfl
@[simp] theorem setX_pc (v : Byte) : (s.setX v).pc = s.pc := rfl
@[simp] theorem setX_p (v : Byte) : (s.setX v).p = s.p := rfl
@[simp] theorem setX_execState (v : Byte) : (s.setX v).execState = s.execState := rfl
@[simp] theorem setX_pendReset (v : Byte) : (s.setX v).pendReset = s.pendReset := rfl
@[simp] theorem setX_pendNmi (v : Byte) : (s.setX v).pendNmi = s.pendNmi := rfl
@[simp] theorem setX_irqLine (v : Byte) : (s.setX v).irqLine = s.irqLine := rfl
@[simp] theorem setX_committed (v : Byte) : (s.setX v).committed = s.committed := rfl
@[simp] theorem setX_cycleCount (v : Byte) : (s.setX v).cycleCount = s.cycleCount := rfl
@[simp] theorem setX_instrCount (v : Byte) : (s.setX v).instrCount = s.instrCount := rfl
@[simp] theorem setX_stall (v : Byte) : (s.setX v).stall = s.stall := rfl
@[simp] theorem setX_breakReq (v : Byte) : (s.setX v).breakReq = s.breakReq := rfl
@[simp] theorem setX_ctx (v : Byte) : (s.setX v).ctx = s.ctx := rfl
@[simp] theorem setX_hooks (v : Byte) : (s.setX v).hooks = s.hooks := rfl
@[simp] theorem setX_params (v : Byte) : (s.setX v).params = s.params := rfl
@[simp] theorem setX_mem (v : Byte) : (s.setX v).mem = s.mem := rfl
@[simp] theorem setX_trace (v : Byte) : (s.setX v).trace = s.trace := rfl
@[simp] theorem setX_script (v : Byte) : (s.setX v).script = s.script := rfl
@[simp] theorem setX_draws (v : Byte) : (s.setX v).draws = s.draws := rfl
@[simp] theorem setX_resetSeen (v : Byte) : (s.setX v).resetSeen = s.resetSeen := rfl

@[simp] theorem setY_a (v : Byte) : (s.setY v).a = s.a := rfl
@[simp] theorem setY_x (v : Byte) : (s.setY v).x = s.x := rfl
@[simp] theorem setY_y (v : Byte) : (s.setY v).y = v := rfl
@[simp] theorem setY_sp (v : Byte) : (s.setY v).sp = s.sp := rfl
@[simp] theorem setY_pc (v : Byte) : (s.setY v).pc = s.pc := rfl
@[simp] theorem setY_p (v : Byte) : (s.setY v).p = s.p := rfl
@[simp] theorem setY_execState (v : Byte) : (s.setY v).execState = s.execState := rfl
@[simp] theorem setY_pendReset (v : Byte) : (s.setY v).pendReset = s.pendReset := rfl
@[simp] theorem setY_pendNmi (v : Byte) : (s.setY v).pendNmi = s.pendNmi := rfl
@[simp] theorem setY_irqLine (v : Byte) : (s.setY v).irqLine = s.irqLine := rfl
@[simp] theorem setY_committed (v : Byte) : (s.setY v).committed = s.committed := rfl
@[simp] theorem setY_cycleCount (v : Byte) : (s.setY v).cycleCount = s.cycleCount := rfl
@[simp] theorem setY_instrCount (v : Byte) : (s.setY v).instrCount = s.instrCount := rfl
@[simp] theorem setY_stall (v : Byte) : (s.setY v).stall = s.stall := rfl
@[simp] theorem setY_breakReq (v : Byte) : (s.setY v).breakReq = s.breakReq := rfl
@[simp] theorem setY_ctx (v : Byte) : (s.setY v).ctx = s.ctx := rfl
@[simp] theorem setY_hooks (v : Byte) : (s.setY v).hooks = s.hooks := rfl
@[simp] theorem setY_params (v : Byte) : (s.setY v).params = s.params := rfl
@[simp] theorem setY_mem (v : Byte) : (s.setY v).mem = s.mem := rfl
@[simp] theorem setY_trace (v : Byte) : (s.setY v).trace = s.trace := rfl
@[simp] theorem setY_script (v : Byte) : (s.setY v).script = s.script := rfl
@[simp] theorem setY_draws (v : Byte) : (s.setY v).draws = s.draws := rfl
@[simp] theorem setY_resetSeen (v : Byte) : (s.setY v).resetSeen = s.resetSeen := rfl

@[simp] theorem setSp_a (v : Byte) : (s.setSp v).a = s.a := rfl
@[simp] theorem setSp_x (v : Byte) : (s.setSp v).x = s.x := rfl
@[simp] theorem setSp_y (v : Byte) : (s.setSp v).y = s.y := rfl
@[simp] theorem setSp_sp (v : Byte) : (s.setSp v).sp = v := rfl
@[simp] theorem setSp_pc (v : Byte) : (s.setSp v).pc = s.pc := rfl
@[simp] theorem setSp_p (v : Byte) : (s.setSp v).p = s.p := rfl
@[simp] theorem setSp_execState (v : Byte) : (s.setSp v).execState = s.execState := rfl
@[simp] theorem setSp_pendReset (v : Byte) : (s.setSp v).pendReset = s.pendReset := rfl
@[simp] theorem setSp_pendNmi (v : Byte) : (s.setSp v).pendNmi = s.pendNmi := rfl
@[simp] theorem setSp_irqLine (v : Byte) : (s.setSp v).irqLine = s.irqLine := rfl
@[simp] theorem setSp_committed (v : Byte) : (s.setSp v).committed = s.committed := rfl
@[simp] theorem setSp_cycleCount (v : Byte) : (s.setSp v).cycleCount = s.cycleCount := rfl
@[simp] theorem setSp_instrCount (v : Byte) : (s.setSp v).instrCount = s.instrCount := rfl
@[simp] theorem setSp_stall (v : Byte) : (s.setSp v).stall = s.stall := rfl
@[simp] theorem setSp_breakReq (v : Byte) : (s.setSp v).breakReq = s.breakReq := rfl
@[simp] theorem setSp_ctx (v : Byte) : (s.setSp v).ctx = s.ctx := rfl
@[simp] theorem setSp_hooks (v : Byte) : (s.setSp v).hooks = s.hooks := rfl
@[simp] theorem setSp_params (v : Byte) : (s.setSp v).params = s.params := rfl
@[simp] theorem setSp_mem (v : Byte) : (s.setSp v).mem = s.mem := rfl
@[simp] theorem setSp_trace (v : Byte) : (s.setSp v).trace = s.trace := rfl
@[simp] theorem setSp_script (v : Byte) : (s.setSp v).script = s.script := rfl
@[simp] theorem setSp_draws (v : Byte) : (s.setSp v).draws = s.draws := rfl
@[simp] theorem setSp_resetSeen (v : Byte) : (s.setSp v).resetSeen = s.resetSeen := rfl

@[simp] theorem setPc_a (w : Word) : (s.setPc w).a = s.a := rfl
@[simp] theorem setPc_x (w : Word) : (s.setPc w).x = s.x := rfl
@[simp] theorem setPc_y (w : Word) : (s.setPc w).y = s.y := rfl
@[simp] theorem setPc_sp (w : Word) : (s.setPc w).sp = s.sp := rfl
@[simp] theorem setPc_pc (w : Word) : (s.setPc w).pc = w := rfl
@[simp] theorem setPc_p (w : Word) : (s.setPc w).p = s.p := rfl
@[simp] theorem setPc_execState (w : Word) : (s.setPc w).execState = s.execState := rfl
@[simp] theorem setPc_pendReset (w : Word) : (s.setPc w).pendReset = s.pendReset := rfl
@[simp] theorem setPc_pendNmi (w : Word) : (s.setPc w).pendNmi = s.pendNmi := rfl
@[simp] theorem setPc_irqLine (w : Word) : (s.setPc w).irqLine = s.irqLine := rfl
@[simp] theorem setPc_committed (w : Word) : (s.setPc w).committed = s.committed := rfl
@[simp] theorem setPc_cycleCount (w : Word) : (s.setPc w).cycleCount = s.cycleCount := rfl
@[simp] theorem setPc_instrCount (w : Word) : (s.setPc w).instrCount = s.instrCount := rfl
@[simp] theorem setPc_stall (w : Word) : (s.setPc w).stall = s.stall := rfl
@[simp] theorem setPc_breakReq (w : Word) : (s.setPc w).breakReq = s.breakReq := rfl
@[simp] theorem setPc_ctx (w : Word) : (s.setPc w).ctx = s.ctx := rfl
@[simp] theorem setPc_hooks (w : Word) : (s.setPc w).hooks = s.hooks := rfl
@[simp] theorem setPc_params (w : Word) : (s.setPc w).params = s.params := rfl
@[simp] theorem setPc_mem (w : Word) : (s.setPc w).mem = s.mem := rfl
@[simp] theorem setPc_trace (w : Word) : (s.setPc w).trace = s.trace := rfl
@[simp] theorem setPc_script (w : Word) : (s.setPc w).script = s.script := rfl
@[simp] theorem setPc_draws (w : Word) : (s.setPc w).draws = s.draws := rfl
@[simp] theorem setPc_resetSeen (w : Word) : (s.setPc w).resetSeen = s.resetSeen := rfl

@[simp] theorem setP_a (q : Flags) : (s.setP q).a = s.a := rfl
@[simp] theorem setP_x (q : Flags) : (s.setP q).x = s.x := rfl
@[simp] theorem setP_y (q : Flags) : (s.setP q).y = s.y := rfl
@[simp] theorem setP_sp (q : Flags) : (s.setP q).sp = s.sp := rfl
@[simp] theorem setP_pc (q : Flags) : (s.setP q).pc = s.pc := rfl
@[simp] theorem setP_p (q : Flags) : (s.setP q).p = q := rfl
@[simp] theorem setP_execState (q : Flags) : (s.setP q).execState = s.execState := rfl
@[simp] theorem setP_pendReset (q : Flags) : (s.setP q).pendReset = s.pendReset := rfl
@[simp] theorem setP_pendNmi (q : Flags) : (s.setP q).pendNmi = s.pendNmi := rfl
@[simp] theorem setP_irqLine (q : Flags) : (s.setP q).irqLine = s.irqLine := rfl
@[simp] theorem setP_committed (q : Flags) : (s.setP q).committed = s.committed := rfl
@[simp] theorem setP_cycleCount (q : Flags) : (s.setP q).cycleCount = s.cycleCount := rfl
@[simp] theorem setP_instrCount (q : Flags) : (s.setP q).instrCount = s.instrCount := rfl
@[simp] theorem setP_stall (q : Flags) : (s.setP q).stall = s.stall := rfl
@[simp] theorem setP_breakReq (q : Flags) : (s.setP q).breakReq = s.breakReq := rfl
@[simp] theorem setP_ctx (q : Flags) : (s.setP q).ctx = s.ctx := rfl
@[simp] theorem setP_hooks (q : Flags) : (s.setP q).hooks = s.hooks := rfl
@[simp] theorem setP_params (q : Flags) : (s.setP q).params = s.params := rfl
@[simp] theorem setP_mem (q : Flags) : (s.setP q).mem = s.mem := rfl
@[simp] theorem setP_trace (q : Flags) : (s.setP q).trace = s.trace := rfl
@[simp] theorem setP_script (q : Flags) : (s.setP q).script = s.script := rfl
@[simp] theorem setP_draws (q : Flags) : (s.setP q).draws = s.draws := rfl
@[simp] theorem setP_resetSeen (q : Flags) : (s.setP q).resetSeen = s.resetSeen := rfl

@[simp] theorem setExec_a (e : ExecState) : (s.setExec e).a = s.a := rfl
@[simp] theorem setExec_x (e : ExecState) : (s.setExec e).x = s.x := rfl
@[simp] theorem setExec_y (e : ExecState) : (s.setExec e).y = s.y := rfl
@[simp] theorem setExec_sp (e : ExecState) : (s.setExec e).sp = s.sp := rfl
@[simp] theorem setExec_pc (e : ExecState) : (s.setExec e).pc = s.pc := rfl
@[simp] theorem setExec_p (e : ExecState) : (s.setExec e).p = s.p := rfl
@[simp] theorem setExec_execState (e : ExecState) : (s.setExec e).execState = e := rfl
@[simp] theorem setExec_pendReset (e : ExecState) : (s.setExec e).pendReset = s.pendReset := rfl
@[simp] theorem setExec_pendNmi (e : ExecState) : (s.setExec e).pendNmi = s.pendNmi := rfl
@[simp] theorem setExec_irqLine (e : ExecState) : (s.setExec e).irqLine = s.irqLine := rfl
@[simp] theorem setExec_committed (e : ExecState) : (s.setExec e).committed = s.committed := rfl
@[simp] theorem setExec_cycleCount (e : ExecState) : (s.setExec e).cycleCount = s.cycleCount := rfl
@[simp] theorem setExec_instrCount (e : ExecState) : (s.setExec e).instrCount = s.instrCount := rfl
@[simp] theorem setExec_stall (e : ExecState) : (s.setExec e).stall = s.stall := rfl
@[simp] theorem setExec_breakReq (e : ExecState) : (s.setExec e).breakReq = s.breakReq := rfl
@[simp] theorem setExec_ctx (e : ExecState) : (s.setExec e).ctx = s.ctx := rfl
@[simp] theorem setExec_hooks (e : ExecState) : (s.setExec e).hooks = s.hooks := rfl
@[simp] theorem setExec_params (e : ExecState) : (s.setExec e).params = s.params := rfl
@[simp] theorem setExec_mem (e : ExecState) : (s.setExec e).mem = s.mem := rfl
@[simp] theorem setExec_trace (e : ExecState) : (s.setExec e).trace = s.trace := rfl
@[simp] theorem setExec_script (e : ExecState) : (s.setExec e).script = s.script := rfl
@[simp] theorem setExec_draws (e : ExecState) : (s.setExec e).draws = s.draws := rfl
@[simp] theorem setExec_resetSeen (e : ExecState) : (s.setExec e).resetSeen = s.resetSeen := rfl

@[simp] theorem setCommitted_a (c : Commit) : (s.setCommitted c).a = s.a := rfl
@[simp] theorem setCommitted_x (c : Commit) : (s.setCommitted c).x = s.x := rfl
@[simp] theorem setCommitted_y (c : Commit) : (s.setCommitted c).y = s.y := rfl
@[simp] theorem setCommitted_sp (c : Commit) : (s.setCommitted c).sp = s.sp := rfl
@[simp] theorem setCommitted_pc (c : Commit) : (s.setCommitted c).pc = s.pc := rfl
@[simp] theorem setCommitted_p (c : Commit) : (s.setCommitted c).p = s.p := rfl
@[simp] theorem setCommitted_execState (c : Commit) : (s.setCommitted c).execState = s.execState := rfl
@[simp] theorem setCommitted_pendReset (c : Commit) : (s.setCommitted c).pendReset = s.pendReset := rfl
@[simp] theorem setCommitted_pendNmi (c : Commit) : (s.setCommitted c).pendNmi = s.pendNmi := rfl
@[simp] theorem setCommitted_irqLine (c : Commit) : (s.setCommitted c).irqLine = s.irqLine := rfl
@[simp] theorem setCommitted_committed (c : Commit) : (s.setCommitted c).committed = c := rfl
@[simp] theorem setCommitted_cycleCount (c : Commit) : (s.setCommitted c).cycleCount = s.cycleCount := rfl
@[simp] theorem setCommitted_instrCount (c : Commit) : (s.setCommitted c).instrCount = s.instrCount := rfl
@[simp] theorem setCommitted_stall (c : Commit) : (s.setCommitted c).stall = s.stall := rfl
@[simp] theorem setCommitted_breakReq (c : Commit) : (s.setCommitted c).breakReq = s.breakReq := rfl
@[simp] theorem setCommitted_ctx (c : Commit) : (s.setCommitted c).ctx = s.ctx := rfl
@[simp] theorem setCommitted_hooks (c : Commit) : (s.setCommitted c).hooks = s.hooks := rfl
@[simp] theorem setCommitted_params (c : Commit) : (s.setCommitted c).params = s.params := rfl
@[simp] theorem setCommitted_mem (c : Commit) : (s.setCommitted c).mem = s.mem := rfl
@[simp] theorem setCommitted_trace (c : Commit) : (s.setCommitted c).trace = s.trace := rfl
@[simp] theorem setCommitted_script (c : Commit) : (s.setCommitted c).script = s.script := rfl
@[simp] theorem setCommitted_draws (c : Commit) : (s.setCommitted c).draws = s.draws := rfl
@[simp] theorem setCommitted_resetSeen (c : Commit) : (s.setCommitted c).resetSeen = s.resetSeen := rfl

@[simp] theorem setCtx_a (c : Ctx) : (s.setCtx c).a = s.a := rfl
@[simp] theorem setCtx_x (c : Ctx) : (s.setCtx c).x = s.x := rfl
@[simp] theorem setCtx_y (c : Ctx) : (s.setCtx c).y = s.y := rfl
@[simp] theorem setCtx_sp (c : Ctx) : (s.setCtx c).sp = s.sp := rfl
@[simp] theorem setCtx_pc (c : Ctx) : (s.setCtx c).pc = s.pc := rfl
@[simp] theorem setCtx_p (c : Ctx) : (s.setCtx c).p = s.p := rfl
@[simp] theorem setCtx_execState (c : Ctx) : (s.setCtx c).execState = s.execState := rfl
@[simp] theorem setCtx_pendReset (c : Ctx) : (s.setCtx c).pendReset = s.pendReset := rfl
@[simp] theorem setCtx_pendNmi (c : Ctx) : (s.setCtx c).pendNmi = s.pendNmi := rfl
@[simp] theorem setCtx_irqLine (c : Ctx) : (s.setCtx c).irqLine = s.irqLine := rfl
@[simp] theorem setCtx_committed (c : Ctx) : (s.setCtx c).committed = s.committed := rfl
@[simp] theorem setCtx_cycleCount (c : Ctx) : (s.setCtx c).cycleCount = s.cycleCount := rfl
@[simp] theorem setCtx_instrCount (c : Ctx) : (s.setCtx c).instrCount = s.instrCount := rfl
@[simp] theorem setCtx_stall (c : Ctx) : (s.setCtx c).stall = s.stall := rfl
@[simp] theorem setCtx_breakReq (c : Ctx) : (s.setCtx c).breakReq = s.breakReq := rfl
@[simp] theorem setCtx_ctx (c : Ctx) : (s.setCtx c).ctx = c := rfl
@[simp] theorem setCtx_hooks (c : Ctx) : (s.setCtx c).hooks = s.hooks := rfl
@[simp] theorem setCtx_params (c : Ctx) : (s.setCtx c).params = s.params := rfl
@[simp] theorem setCtx_mem (c : Ctx) : (s.setCtx c).mem = s.mem := rfl
@[simp] theorem setCtx_trace (c : Ctx) : (s.setCtx c).trace = s.trace := rfl
@[simp] theorem setCtx_script (c : Ctx) : (s.setCtx c).script = s.script := rfl
@[simp] theorem setCtx_draws (c : Ctx) : (s.setCtx c).draws = s.draws := rfl
@[simp] theorem setCtx_resetSeen (c : Ctx) : (s.setCtx c).resetSeen = s.resetSeen := rfl

@[simp] theorem setMem_a (m : Memory) : (s.setMem m).a = s.a := rfl
@[simp] theorem setMem_x (m : Memory) : (s.setMem m).x = s.x := rfl
@[simp] theorem setMem_y (m : Memory) : (s.setMem m).y = s.y := rfl
@[simp] theorem setMem_sp (m : Memory) : (s.setMem m).sp = s.sp := rfl
@[simp] theorem setMem_pc (m : Memory) : (s.setMem m).pc = s.pc := rfl
@[simp] theorem setMem_p (m : Memory) : (s.setMem m).p = s.p := rfl
@[simp] theorem setMem_execState (m : Memory) : (s.setMem m).execState = s.execState := rfl
@[simp] theorem setMem_pendReset (m : Memory) : (s.setMem m).pendReset = s.pendReset := rfl
@[simp] theorem setMem_pendNmi (m : Memory) : (s.setMem m).pendNmi = s.pendNmi := rfl
@[simp] theorem setMem_irqLine (m : Memory) : (s.setMem m).irqLine = s.irqLine := rfl
@[simp] theorem setMem_committed (m : Memory) : (s.setMem m).committed = s.committed := rfl
@[simp] theorem setMem_cycleCount (m : Memory) : (s.setMem m).cycleCount = s.cycleCount := rfl
@[simp] theorem setMem_instrCount (m : Memory) : (s.setMem m).instrCount = s.instrCount := rfl
@[simp] theorem setMem_stall (m : Memory) : (s.setMem m).stall = s.stall := rfl
@[simp] theorem setMem_breakReq (m : Memory) : (s.setMem m).breakReq = s.breakReq := rfl
@[simp] theorem setMem_ctx (m : Memory) : (s.setMem m).ctx = s.ctx := rfl
@[simp] theorem setMem_hooks (m : Memory) : (s.setMem m).hooks = s.hooks := rfl
@[simp] theorem setMem_params (m : Memory) : (s.setMem m).params = s.params := rfl
@[simp] theorem setMem_mem (m : Memory) : (s.setMem m).mem = m := rfl
@[simp] theorem setMem_trace (m : Memory) : (s.setMem m).trace = s.trace := rfl
@[simp] theorem setMem_script (m : Memory) : (s.setMem m).script = s.script := rfl
@[simp] theorem setMem_draws (m : Memory) : (s.setMem m).draws = s.draws := rfl
@[simp] theorem setMem_resetSeen (m : Memory) : (s.setMem m).resetSeen = s.resetSeen := rfl

@[simp] theorem setStall_a (n : Nat) : (s.setStall n).a = s.a := rfl
@[simp] theorem setStall_x (n : Nat) : (s.setStall n).x = s.x := rfl
@[simp] theorem setStall_y (n : Nat) : (s.setStall n).y = s.y := rfl
@[simp] theorem setStall_sp (n : Nat) : (s.setStall n).sp = s.sp := rfl
@[simp] theorem setStall_pc (n : Nat) : (s.setStall n).pc = s.pc := rfl
@[simp] theorem setStall_p (n : Nat) : (s.setStall n).p = s.p := rfl
@[simp] theorem setStall_execState (n : Nat) : (s.setStall n).execState = s.execState := rfl
@[simp] theorem setStall_pendReset (n : Nat) : (s.setStall n).pendReset = s.pendReset := rfl
@[simp] theorem setStall_pendNmi (n : Nat) : (s.setStall n).pendNmi = s.pendNmi := rfl
@[simp] theorem setStall_irqLine (n : Nat) : (s.setStall n).irqLine = s.irqLine := rfl
@[simp] theorem setStall_committed (n : Nat) : (s.setStall n).committed = s.committed := rfl
@[simp] theorem setStall_cycleCount (n : Nat) : (s.setStall n).cycleCount = s.cycleCount := rfl
@[simp] theorem setStall_instrCount (n : Nat) : (s.setStall n).instrCount = s.instrCount := rfl
@[simp] theorem setStall_stall (n : Nat) : (s.setStall n).stall = n := rfl
@[simp] theorem setStall_breakReq (n : Nat) : (s.setStall n).breakReq = s.breakReq := rfl
@[simp] theorem setStall_ctx (n : Nat) : (s.setStall n).ctx = s.ctx := rfl
@[simp] theorem setStall_hooks (n : Nat) : (s.setStall n).hooks = s.hooks := rfl
@[simp] theorem setStall_params (n : Nat) : (s.setStall n).params = s.params := rfl
@[simp] theorem setStall_mem (n : Nat) : (s.setStall n).mem = s.mem := rfl
@[simp] theorem setStall_trace (n : Nat) : (s.setStall n).trace = s.trace := rfl
@[simp] theorem setStall_script (n : Nat) : (s.setStall n).script = s.script := rfl
@[simp] theorem setStall_draws (n : Nat) : (s.setStall n).draws = s.draws := rfl
@[simp] theorem setStall_resetSeen (n : Nat) : (s.setStall n).resetSeen = s.resetSeen := rfl

@[simp] theorem call_a (c : HostCall) : (s.call c).a = s.a := rfl
@[simp] theorem call_x (c : HostCall) : (s.call c).x = s.x := rfl
@[simp] theorem call_y (c : HostCall) : (s.call c).y = s.y := rfl
@[simp] theorem call_sp (c : HostCall) : (s.call c).sp = s.sp := rfl
@[simp] theorem call_pc (c : HostCall) : (s.call c).pc = s.pc := rfl
@[simp] theorem call_p (c : HostCall) : (s.call c).p = s.p := rfl
@[simp] theorem call_execState (c : HostCall) : (s.call c).execState = s.execState := rfl
@[simp] theorem call_pendReset (c : HostCall) : (s.call c).pendReset = s.pendReset := rfl
@[simp] theorem call_pendNmi (c : HostCall) : (s.call c).pendNmi = s.pendNmi := rfl
@[simp] theorem call_irqLine (c : HostCall) : (s.call c).irqLine = s.irqLine := rfl
@[simp] theorem call_committed (c : HostCall) : (s.call c).committed = s.committed := rfl
@[simp] theorem call_cycleCount (c : HostCall) : (s.call c).cycleCount = s.cycleCount := rfl
@[simp] theorem call_instrCount (c : HostCall) : (s.call c).instrCount = s.instrCount := rfl
@[simp] theorem call_stall (c : HostCall) : (s.call c).stall = s.stall := rfl
@[simp] theorem call_breakReq (c : HostCall) : (s.call c).breakReq = s.breakReq := rfl
@[simp] theorem call_ctx (c : HostCall) : (s.call c).ctx = s.ctx := rfl
@[simp] theorem call_hooks (c : HostCall) : (s.call c).hooks = s.hooks := rfl
@[simp] theorem call_params (c : HostCall) : (s.call c).params = s.params := rfl
@[simp] theorem call_mem (c : HostCall) : (s.call c).mem = s.mem := rfl
@[simp] theorem call_trace (c : HostCall) : (s.call c).trace = c :: s.trace := rfl
@[simp] theorem call_script (c : HostCall) : (s.call c).script = s.script := rfl
@[simp] theorem call_draws (c : HostCall) : (s.call c).draws = s.draws := rfl
@[simp] theorem call_resetSeen (c : HostCall) : (s.call c).resetSeen = s.resetSeen := rfl

@[simp] theorem drawn_a : s.drawn.a = s.a := rfl
@[simp] theorem drawn_x : s.drawn.x = s.x := rfl
@[simp] theorem drawn_y : s.drawn.y = s.y := rfl
@[simp] theorem drawn_sp : s.drawn.sp = s.sp := rfl
@[simp] theorem drawn_pc : s.drawn.pc = s.pc := rfl
@[simp] theorem drawn_p : s.drawn.p = s.p := rfl
@[simp] theorem drawn_execState : s.drawn.execState = s.execState := rfl
@[simp] theorem drawn_pendReset : s.drawn.pendReset = s.pendReset := rfl
@[simp] theorem drawn_pendNmi : s.drawn.pendNmi = s.pendNmi := rfl
@[simp] theorem drawn_irqLine : s.drawn.irqLine = s.irqLine := rfl
@[simp] theorem drawn_committed : s.drawn.committed = s.committed := rfl
@[simp] theorem drawn_cycleCount : s.drawn.cycleCount = s.cycleCount := rfl
@[simp] theorem drawn_instrCount : s.drawn.instrCount = s.instrCount := rfl
@[simp] theorem drawn_stall : s.drawn.stall = s.stall := rfl
@[simp] theorem drawn_breakReq : s.drawn.breakReq = s.breakReq := rfl
@[simp] theorem drawn_ctx : s.drawn.ctx = s.ctx := rfl
@[simp] theorem drawn_hooks : s.drawn.hooks = s.hooks := rfl
@[simp] theorem drawn_params : s.drawn.params = s.params := rfl
@[simp] theorem drawn_mem : s.drawn.mem = s.mem := rfl
@[simp] theorem drawn_trace : s.drawn.trace = s.trace := rfl
@[simp] theorem drawn_script : s.drawn.script = s.script := rfl
@[simp] theorem drawn_draws : s.drawn.draws = s.draws + 1 := rfl
@[simp] theorem drawn_resetSeen : s.drawn.resetSeen = s.resetSeen := rfl

@[simp] theorem sample_a : s.sample.a = s.a := rfl
@[simp] theorem sample_x : s.sample.x = s.x := rfl
@[simp] theorem sample_y : s.sample.y = s.y := rfl
@[simp] theorem sample_sp : s.sample.sp = s.sp := rfl
@[simp] theorem sample_pc : s.sample.pc = s.pc := rfl
@[simp] theorem sample_p : s.sample.p = s.p := rfl
@[simp] theorem sample_execState : s.sample.execState = s.execState := rfl
@[simp] theorem sample_pendReset : s.sample.pendReset = s.pendReset := rfl
@[simp] theorem sample_pendNmi : s.sample.pendNmi = s.pendNmi := rfl
@[simp] theorem sample_irqLine : s.sample.irqLine = s.irqLine := rfl
@[simp] theorem sample_committed : s.sample.committed = s.sampled := rfl
@[simp] theorem sample_cycleCount : s.sample.cycleCount = s.cycleCount := rfl
@[simp] theorem sample_instrCount : s.sample.instrCount = s.instrCount := rfl
@[simp] theorem sample_stall : s.sample.stall = s.stall := rfl
@[simp] theorem sample_breakReq : s.sample.breakReq = s.breakReq := rfl
@[simp] theorem sample_ctx : s.sample.ctx = s.ctx := rfl
@[simp] theorem sample_hooks : s.sample.hooks = s.hooks := rfl
@[simp] theorem sample_params : s.sample.params = s.params := rfl
@[simp] theorem sample_mem : s.sample.mem = s.mem := rfl
@[simp] theorem sample_trace : s.sample.trace = s.trace := rfl
@[simp] theorem sample_script : s.sample.script = s.script := rfl
@[simp] theorem sample_draws : s.sample.draws = s.draws := rfl
@[simp] theorem sample_resetSeen : s.sample.resetSeen = s.resetSeen := rfl

@[simp] theorem begin_a (op : Byte) : (s.begin op).a = s.a := rfl
@[simp] theorem begin_x (op : Byte) : (s.begin op).x = s.x := rfl
@[simp] theorem begin_y (op : Byte) : (s.begin op).y = s.y := rfl
@[simp] theorem begin_sp (op : Byte) : (s.begin op).sp = s.sp := rfl
@[simp] theorem begin_pc (op : Byte) : (s.begin op).pc = s.pc := rfl
@[simp] theorem begin_p (op : Byte) : (s.begin op).p = s.p := rfl
@[simp] theorem begin_execState (op : Byte) : (s.begin op).execState = s.execState := rfl
@[simp] theorem begin_pendReset (op : Byte) : (s.begin op).pendReset = s.pendReset := rfl
@[simp] theorem begin_pendNmi (op : Byte) : (s.begin op).pendNmi = s.pendNmi := rfl
@[simp] theorem begin_irqLine (op : Byte) : (s.begin op).irqLine = s.irqLine := rfl
@[simp] theorem begin_committed (op : Byte) : (s.begin op).committed = s.committed := rfl
@[simp] theorem begin_cycleCount (op : Byte) : (s.begin op).cycleCount = s.cycleCount := rfl
@[simp] theorem begin_instrCount (op : Byte) : (s.begin op).instrCount = s.instrCount := rfl
@[simp] theorem begin_stall (op : Byte) : (s.begin op).stall = s.stall := rfl
@[simp] theorem begin_breakReq (op : Byte) : (s.begin op).breakReq = s.breakReq := rfl
@[simp] theorem begin_ctx (op : Byte) : (s.begin op).ctx = { Ctx.idle with active := true, opcode := op, cycle := 1 } := rfl
@[simp] theorem begin_hooks (op : Byte) : (s.begin op).hooks = s.hooks := rfl
@[simp] theorem begin_params (op : Byte) : (s.begin op).params = s.params := rfl
@[simp] theorem begin_mem (op : Byte) : (s.begin op).mem = s.mem := rfl
@[simp] theorem begin_trace (op : Byte) : (s.begin op).trace = s.trace := rfl
@[simp] theorem begin_script (op : Byte) : (s.begin op).script = s.script := rfl
@[simp] theorem begin_draws (op : Byte) : (s.begin op).draws = s.draws := rfl
@[simp] theorem begin_resetSeen (op : Byte) : (s.begin op).resetSeen = s.resetSeen := rfl

@[simp] theorem discard_a : s.discard.a = s.a := rfl
@[simp] theorem discard_x : s.discard.x = s.x := rfl
@[simp] theorem discard_y : s.discard.y = s.y := rfl
@[simp] theorem discard_sp : s.discard.sp = s.sp := rfl
@[simp] theorem discard_pc : s.discard.pc = s.pc := rfl
@[simp] theorem discard_p : s.discard.p = s.p := rfl
@[simp] theorem discard_execState : s.discard.execState = s.execState := rfl
@[simp] theorem discard_pendReset : s.discard.pendReset = s.pendReset := rfl
@[simp] theorem discard_pendNmi : s.discard.pendNmi = s.pendNmi := rfl
@[simp] theorem discard_irqLine : s.discard.irqLine = s.irqLine := rfl
@[simp] theorem discard_committed : s.discard.committed = s.committed := rfl
@[simp] theorem discard_cycleCount : s.discard.cycleCount = s.cycleCount := rfl
@[simp] theorem discard_instrCount : s.discard.instrCount = s.instrCount := rfl
@[simp] theorem discard_stall : s.discard.stall = s.stall := rfl
@[simp] theorem discard_breakReq : s.discard.breakReq = s.breakReq := rfl
@[simp] theorem discard_ctx : s.discard.ctx = Ctx.idle := rfl
@[simp] theorem discard_hooks : s.discard.hooks = s.hooks := rfl
@[simp] theorem discard_params : s.discard.params = s.params := rfl
@[simp] theorem discard_mem : s.discard.mem = s.mem := rfl
@[simp] theorem discard_trace : s.discard.trace = s.trace := rfl
@[simp] theorem discard_script : s.discard.script = s.script := rfl
@[simp] theorem discard_draws : s.discard.draws = s.draws := rfl
@[simp] theorem discard_resetSeen : s.discard.resetSeen = s.resetSeen := rfl

@[simp] theorem latchEa_a (ea : Word) (page : Bool) : (s.latchEa ea page).a = s.a := rfl
@[simp] theorem latchEa_x (ea : Word) (page : Bool) : (s.latchEa ea page).x = s.x := rfl
@[simp] theorem latchEa_y (ea : Word) (page : Bool) : (s.latchEa ea page).y = s.y := rfl
@[simp] theorem latchEa_sp (ea : Word) (page : Bool) : (s.latchEa ea page).sp = s.sp := rfl
@[simp] theorem latchEa_pc (ea : Word) (page : Bool) : (s.latchEa ea page).pc = s.pc := rfl
@[simp] theorem latchEa_p (ea : Word) (page : Bool) : (s.latchEa ea page).p = s.p := rfl
@[simp] theorem latchEa_execState (ea : Word) (page : Bool) : (s.latchEa ea page).execState = s.execState := rfl
@[simp] theorem latchEa_pendReset (ea : Word) (page : Bool) : (s.latchEa ea page).pendReset = s.pendReset := rfl
@[simp] theorem latchEa_pendNmi (ea : Word) (page : Bool) : (s.latchEa ea page).pendNmi = s.pendNmi := rfl
@[simp] theorem latchEa_irqLine (ea : Word) (page : Bool) : (s.latchEa ea page).irqLine = s.irqLine := rfl
@[simp] theorem latchEa_committed (ea : Word) (page : Bool) : (s.latchEa ea page).committed = s.committed := rfl
@[simp] theorem latchEa_cycleCount (ea : Word) (page : Bool) : (s.latchEa ea page).cycleCount = s.cycleCount := rfl
@[simp] theorem latchEa_instrCount (ea : Word) (page : Bool) : (s.latchEa ea page).instrCount = s.instrCount := rfl
@[simp] theorem latchEa_stall (ea : Word) (page : Bool) : (s.latchEa ea page).stall = s.stall := rfl
@[simp] theorem latchEa_breakReq (ea : Word) (page : Bool) : (s.latchEa ea page).breakReq = s.breakReq := rfl
@[simp] theorem latchEa_ctx (ea : Word) (page : Bool) : (s.latchEa ea page).ctx = { s.ctx with ea := ea, page := page } := rfl
@[simp] theorem latchEa_hooks (ea : Word) (page : Bool) : (s.latchEa ea page).hooks = s.hooks := rfl
@[simp] theorem latchEa_params (ea : Word) (page : Bool) : (s.latchEa ea page).params = s.params := rfl
@[simp] theorem latchEa_mem (ea : Word) (page : Bool) : (s.latchEa ea page).mem = s.mem := rfl
@[simp] theorem latchEa_trace (ea : Word) (page : Bool) : (s.latchEa ea page).trace = s.trace := rfl
@[simp] theorem latchEa_script (ea : Word) (page : Bool) : (s.latchEa ea page).script = s.script := rfl
@[simp] theorem latchEa_draws (ea : Word) (page : Bool) : (s.latchEa ea page).draws = s.draws := rfl
@[simp] theorem latchEa_resetSeen (ea : Word) (page : Bool) : (s.latchEa ea page).resetSeen = s.resetSeen := rfl

@[simp] theorem latchAux_a (w : Word) : (s.latchAux w).a = s.a := rfl
@[simp] theorem latchAux_x (w : Word) : (s.latchAux w).x = s.x := rfl
@[simp] theorem latchAux_y (w : Word) : (s.latchAux w).y = s.y := rfl
@[simp] theorem latchAux_sp (w : Word) : (s.latchAux w).sp = s.sp := rfl
@[simp] theorem latchAux_pc (w : Word) : (s.latchAux w).pc = s.pc := rfl
@[simp] theorem latchAux_p (w : Word) : (s.latchAux w).p = s.p := rfl
@[simp] theorem latchAux_execState (w : Word) : (s.latchAux w).execState = s.execState := rfl
@[simp] theorem latchAux_pendReset (w : Word) : (s.latchAux w).pendReset = s.pendReset := rfl
@[simp] theorem latchAux_pendNmi (w : Word) : (s.latchAux w).pendNmi = s.pendNmi := rfl
@[simp] theorem latchAux_irqLine (w : Word) : (s.latchAux w).irqLine = s.irqLine := rfl
@[simp] theorem latchAux_committed (w : Word) : (s.latchAux w).committed = s.committed := rfl
@[simp] theorem latchAux_cycleCount (w : Word) : (s.latchAux w).cycleCount = s.cycleCount := rfl
@[simp] theorem latchAux_instrCount (w : Word) : (s.latchAux w).instrCount = s.instrCount := rfl
@[simp] theorem latchAux_stall (w : Word) : (s.latchAux w).stall = s.stall := rfl
@[simp] theorem latchAux_breakReq (w : Word) : (s.latchAux w).breakReq = s.breakReq := rfl
@[simp] theorem latchAux_ctx (w : Word) : (s.latchAux w).ctx = { s.ctx with aux := w } := rfl
@[simp] theorem latchAux_hooks (w : Word) : (s.latchAux w).hooks = s.hooks := rfl
@[simp] theorem latchAux_params (w : Word) : (s.latchAux w).params = s.params := rfl
@[simp] theorem latchAux_mem (w : Word) : (s.latchAux w).mem = s.mem := rfl
@[simp] theorem latchAux_trace (w : Word) : (s.latchAux w).trace = s.trace := rfl
@[simp] theorem latchAux_script (w : Word) : (s.latchAux w).script = s.script := rfl
@[simp] theorem latchAux_draws (w : Word) : (s.latchAux w).draws = s.draws := rfl
@[simp] theorem latchAux_resetSeen (w : Word) : (s.latchAux w).resetSeen = s.resetSeen := rfl

@[simp] theorem latchData_a (v : Byte) : (s.latchData v).a = s.a := rfl
@[simp] theorem latchData_x (v : Byte) : (s.latchData v).x = s.x := rfl
@[simp] theorem latchData_y (v : Byte) : (s.latchData v).y = s.y := rfl
@[simp] theorem latchData_sp (v : Byte) : (s.latchData v).sp = s.sp := rfl
@[simp] theorem latchData_pc (v : Byte) : (s.latchData v).pc = s.pc := rfl
@[simp] theorem latchData_p (v : Byte) : (s.latchData v).p = s.p := rfl
@[simp] theorem latchData_execState (v : Byte) : (s.latchData v).execState = s.execState := rfl
@[simp] theorem latchData_pendReset (v : Byte) : (s.latchData v).pendReset = s.pendReset := rfl
@[simp] theorem latchData_pendNmi (v : Byte) : (s.latchData v).pendNmi = s.pendNmi := rfl
@[simp] theorem latchData_irqLine (v : Byte) : (s.latchData v).irqLine = s.irqLine := rfl
@[simp] theorem latchData_committed (v : Byte) : (s.latchData v).committed = s.committed := rfl
@[simp] theorem latchData_cycleCount (v : Byte) : (s.latchData v).cycleCount = s.cycleCount := rfl
@[simp] theorem latchData_instrCount (v : Byte) : (s.latchData v).instrCount = s.instrCount := rfl
@[simp] theorem latchData_stall (v : Byte) : (s.latchData v).stall = s.stall := rfl
@[simp] theorem latchData_breakReq (v : Byte) : (s.latchData v).breakReq = s.breakReq := rfl
@[simp] theorem latchData_ctx (v : Byte) : (s.latchData v).ctx = { s.ctx with data := v } := rfl
@[simp] theorem latchData_hooks (v : Byte) : (s.latchData v).hooks = s.hooks := rfl
@[simp] theorem latchData_params (v : Byte) : (s.latchData v).params = s.params := rfl
@[simp] theorem latchData_mem (v : Byte) : (s.latchData v).mem = s.mem := rfl
@[simp] theorem latchData_trace (v : Byte) : (s.latchData v).trace = s.trace := rfl
@[simp] theorem latchData_script (v : Byte) : (s.latchData v).script = s.script := rfl
@[simp] theorem latchData_draws (v : Byte) : (s.latchData v).draws = s.draws := rfl
@[simp] theorem latchData_resetSeen (v : Byte) : (s.latchData v).resetSeen = s.resetSeen := rfl

@[simp] theorem tally_a (c : HostCall) : (s.tally c).a = s.a := rfl
@[simp] theorem tally_x (c : HostCall) : (s.tally c).x = s.x := rfl
@[simp] theorem tally_y (c : HostCall) : (s.tally c).y = s.y := rfl
@[simp] theorem tally_sp (c : HostCall) : (s.tally c).sp = s.sp := rfl
@[simp] theorem tally_pc (c : HostCall) : (s.tally c).pc = s.pc := rfl
@[simp] theorem tally_p (c : HostCall) : (s.tally c).p = s.p := rfl
@[simp] theorem tally_execState (c : HostCall) : (s.tally c).execState = s.execState := rfl
@[simp] theorem tally_pendReset (c : HostCall) : (s.tally c).pendReset = s.pendReset := rfl
@[simp] theorem tally_pendNmi (c : HostCall) : (s.tally c).pendNmi = s.pendNmi := rfl
@[simp] theorem tally_irqLine (c : HostCall) : (s.tally c).irqLine = s.irqLine := rfl
@[simp] theorem tally_committed (c : HostCall) : (s.tally c).committed = s.committed := rfl
@[simp] theorem tally_cycleCount (c : HostCall) : (s.tally c).cycleCount = s.cycleCount + 1 := rfl
@[simp] theorem tally_instrCount (c : HostCall) : (s.tally c).instrCount = s.instrCount := rfl
@[simp] theorem tally_stall (c : HostCall) : (s.tally c).stall = s.stall := rfl
@[simp] theorem tally_breakReq (c : HostCall) : (s.tally c).breakReq = s.breakReq := rfl
@[simp] theorem tally_ctx (c : HostCall) : (s.tally c).ctx = { s.ctx with cycle := s.ctx.cycle + 1 } := rfl
@[simp] theorem tally_hooks (c : HostCall) : (s.tally c).hooks = s.hooks := rfl
@[simp] theorem tally_params (c : HostCall) : (s.tally c).params = s.params := rfl
@[simp] theorem tally_mem (c : HostCall) : (s.tally c).mem = s.mem := rfl
@[simp] theorem tally_trace (c : HostCall) : (s.tally c).trace = c :: s.trace := rfl
@[simp] theorem tally_script (c : HostCall) : (s.tally c).script = s.script := rfl
@[simp] theorem tally_draws (c : HostCall) : (s.tally c).draws = s.draws := rfl
@[simp] theorem tally_resetSeen (c : HostCall) : (s.tally c).resetSeen = s.resetSeen := rfl

@[simp] theorem retire_a : s.retire.a = s.a := rfl
@[simp] theorem retire_x : s.retire.x = s.x := rfl
@[simp] theorem retire_y : s.retire.y = s.y := rfl
@[simp] theorem retire_sp : s.retire.sp = s.sp := rfl
@[simp] theorem retire_pc : s.retire.pc = s.pc := rfl
@[simp] theorem retire_p : s.retire.p = s.p := rfl
@[simp] theorem retire_execState : s.retire.execState = s.execState := rfl
@[simp] theorem retire_pendReset : s.retire.pendReset = s.pendReset := rfl
@[simp] theorem retire_pendNmi : s.retire.pendNmi = s.pendNmi := rfl
@[simp] theorem retire_irqLine : s.retire.irqLine = s.irqLine := rfl
@[simp] theorem retire_committed : s.retire.committed = s.committed := rfl
@[simp] theorem retire_cycleCount : s.retire.cycleCount = s.cycleCount := rfl
@[simp] theorem retire_instrCount : s.retire.instrCount = s.instrCount + 1 := rfl
@[simp] theorem retire_stall : s.retire.stall = s.stall := rfl
@[simp] theorem retire_breakReq : s.retire.breakReq = s.breakReq := rfl
@[simp] theorem retire_ctx : s.retire.ctx = Ctx.idle := rfl
@[simp] theorem retire_hooks : s.retire.hooks = s.hooks := rfl
@[simp] theorem retire_params : s.retire.params = s.params := rfl
@[simp] theorem retire_mem : s.retire.mem = s.mem := rfl
@[simp] theorem retire_trace : s.retire.trace = s.trace := rfl
@[simp] theorem retire_script : s.retire.script = s.script := rfl
@[simp] theorem retire_draws : s.retire.draws = s.draws := rfl
@[simp] theorem retire_resetSeen : s.retire.resetSeen = s.resetSeen := rfl

@[simp] theorem setStatus_a (v : Byte) : (s.setStatus v).a = s.a := rfl
@[simp] theorem setStatus_x (v : Byte) : (s.setStatus v).x = s.x := rfl
@[simp] theorem setStatus_y (v : Byte) : (s.setStatus v).y = s.y := rfl
@[simp] theorem setStatus_sp (v : Byte) : (s.setStatus v).sp = s.sp := rfl
@[simp] theorem setStatus_pc (v : Byte) : (s.setStatus v).pc = s.pc := rfl
@[simp] theorem setStatus_p (v : Byte) : (s.setStatus v).p = Flags.ofByte v := rfl
@[simp] theorem setStatus_execState (v : Byte) : (s.setStatus v).execState = s.execState := rfl
@[simp] theorem setStatus_pendReset (v : Byte) : (s.setStatus v).pendReset = s.pendReset := rfl
@[simp] theorem setStatus_pendNmi (v : Byte) : (s.setStatus v).pendNmi = s.pendNmi := rfl
@[simp] theorem setStatus_irqLine (v : Byte) : (s.setStatus v).irqLine = s.irqLine := rfl
@[simp] theorem setStatus_committed (v : Byte) : (s.setStatus v).committed = s.committed := rfl
@[simp] theorem setStatus_cycleCount (v : Byte) : (s.setStatus v).cycleCount = s.cycleCount := rfl
@[simp] theorem setStatus_instrCount (v : Byte) : (s.setStatus v).instrCount = s.instrCount := rfl
@[simp] theorem setStatus_stall (v : Byte) : (s.setStatus v).stall = s.stall := rfl
@[simp] theorem setStatus_breakReq (v : Byte) : (s.setStatus v).breakReq = s.breakReq := rfl
@[simp] theorem setStatus_ctx (v : Byte) : (s.setStatus v).ctx = s.ctx := rfl
@[simp] theorem setStatus_hooks (v : Byte) : (s.setStatus v).hooks = s.hooks := rfl
@[simp] theorem setStatus_params (v : Byte) : (s.setStatus v).params = s.params := rfl
@[simp] theorem setStatus_mem (v : Byte) : (s.setStatus v).mem = s.mem := rfl
@[simp] theorem setStatus_trace (v : Byte) : (s.setStatus v).trace = s.trace := rfl
@[simp] theorem setStatus_script (v : Byte) : (s.setStatus v).script = s.script := rfl
@[simp] theorem setStatus_draws (v : Byte) : (s.setStatus v).draws = s.draws := rfl
@[simp] theorem setStatus_resetSeen (v : Byte) : (s.setStatus v).resetSeen = s.resetSeen := rfl

@[simp] theorem setNZ_a (v : Byte) : (s.setNZ v).a = s.a := rfl
@[simp] theorem setNZ_x (v : Byte) : (s.setNZ v).x = s.x := rfl
@[simp] theorem setNZ_y (v : Byte) : (s.setNZ v).y = s.y := rfl
@[simp] theorem setNZ_sp (v : Byte) : (s.setNZ v).sp = s.sp := rfl
@[simp] theorem setNZ_pc (v : Byte) : (s.setNZ v).pc = s.pc := rfl
@[simp] theorem setNZ_p (v : Byte) : (s.setNZ v).p = s.p.setNZ v := rfl
@[simp] theorem setNZ_execState (v : Byte) : (s.setNZ v).execState = s.execState := rfl
@[simp] theorem setNZ_pendReset (v : Byte) : (s.setNZ v).pendReset = s.pendReset := rfl
@[simp] theorem setNZ_pendNmi (v : Byte) : (s.setNZ v).pendNmi = s.pendNmi := rfl
@[simp] theorem setNZ_irqLine (v : Byte) : (s.setNZ v).irqLine = s.irqLine := rfl
@[simp] theorem setNZ_committed (v : Byte) : (s.setNZ v).committed = s.committed := rfl
@[simp] theorem setNZ_cycleCount (v : Byte) : (s.setNZ v).cycleCount = s.cycleCount := rfl
@[simp] theorem setNZ_instrCount (v : Byte) : (s.setNZ v).instrCount = s.instrCount := rfl
@[simp] theorem setNZ_stall (v : Byte) : (s.setNZ v).stall = s.stall := rfl
@[simp] theorem setNZ_breakReq (v : Byte) : (s.setNZ v).breakReq = s.breakReq := rfl
@[simp] theorem setNZ_ctx (v : Byte) : (s.setNZ v).ctx = s.ctx := rfl
@[simp] theorem setNZ_hooks (v : Byte) : (s.setNZ v).hooks = s.hooks := rfl
@[simp] theorem setNZ_params (v : Byte) : (s.setNZ v).params = s.params := rfl
@[simp] theorem setNZ_mem (v : Byte) : (s.setNZ v).mem = s.mem := rfl
@[simp] theorem setNZ_trace (v : Byte) : (s.setNZ v).trace = s.trace := rfl
@[simp] theorem setNZ_script (v : Byte) : (s.setNZ v).script = s.script := rfl
@[simp] theorem setNZ_draws (v : Byte) : (s.setNZ v).draws = s.draws := rfl
@[simp] theorem setNZ_resetSeen (v : Byte) : (s.setNZ v).resetSeen = s.resetSeen := rfl

@[simp] theorem setC_a (c : Bool) : (s.setC c).a = s.a := rfl
@[simp] theorem setC_x (c : Bool) : (s.setC c).x = s.x := rfl
@[simp] theorem setC_y (c : Bool) : (s.setC c).y = s.y := rfl
@[simp] theorem setC_sp (c : Bool) : (s.setC c).sp = s.sp := rfl
@[simp] theorem setC_pc (c : Bool) : (s.setC c).pc = s.pc := rfl
@[simp] theorem setC_p (c : Bool) : (s.setC c).p = { s.p with c := c } := rfl
@[simp] theorem setC_execState (c : Bool) : (s.setC c).execState = s.execState := rfl
@[simp] theorem setC_pendReset (c : Bool) : (s.setC c).pendReset = s.pendReset := rfl
@[simp] theorem setC_pendNmi (c : Bool) : (s.setC c).pendNmi = s.pendNmi := rfl
@[simp] theorem setC_irqLine (c : Bool) : (s.setC c).irqLine = s.irqLine := rfl
@[simp] theorem setC_committed (c : Bool) : (s.setC c).committed = s.committed := rfl
@[simp] theorem setC_cycleCount (c : Bool) : (s.setC c).cycleCount = s.cycleCount := rfl
@[simp] theorem setC_instrCount (c : Bool) : (s.setC c).instrCount = s.instrCount := rfl
@[simp] theorem setC_stall (c : Bool) : (s.setC c).stall = s.stall := rfl
@[simp] theorem setC_breakReq (c : Bool) : (s.setC c).breakReq = s.breakReq := rfl
@[simp] theorem setC_ctx (c : Bool) : (s.setC c).ctx = s.ctx := rfl
@[simp] theorem setC_hooks (c : Bool) : (s.setC c).hooks = s.hooks := rfl
@[simp] theorem setC_params (c : Bool) : (s.setC c).params = s.params := rfl
@[simp] theorem setC_mem (c : Bool) : (s.setC c).mem = s.mem := rfl
@[simp] theorem setC_trace (c : Bool) : (s.setC c).trace = s.trace := rfl
@[simp] theorem setC_script (c : Bool) : (s.setC c).script = s.script := rfl
@[simp] theorem setC_draws (c : Bool) : (s.setC c).draws = s.draws := rfl
@[simp] theorem setC_resetSeen (c : Bool) : (s.setC c).resetSeen = s.resetSeen := rfl

@[simp] theorem setZ_a (z : Bool) : (s.setZ z).a = s.a := rfl
@[simp] theorem setZ_x (z : Bool) : (s.setZ z).x = s.x := rfl
@[simp] theorem setZ_y (z : Bool) : (s.setZ z).y = s.y := rfl
@[simp] theorem setZ_sp (z : Bool) : (s.setZ z).sp = s.sp := rfl
@[simp] theorem setZ_pc (z : Bool) : (s.setZ z).pc = s.pc := rfl
@[simp] theorem setZ_p (z : Bool) : (s.setZ z).p = { s.p with z := z } := rfl
@[simp] theorem setZ_execState (z : Bool) : (s.setZ z).execState = s.execState := rfl
@[simp] theorem setZ_pendReset (z : Bool) : (s.setZ z).pendReset = s.pendReset := rfl
@[simp] theorem setZ_pendNmi (z : Bool) : (s.setZ z).pendNmi = s.pendNmi := rfl
@[simp] theorem setZ_irqLine (z : Bool) : (s.setZ z).irqLine = s.irqLine := rfl
@[simp] theorem setZ_committed (z : Bool) : (s.setZ z).committed = s.committed := rfl
@[simp] theorem setZ_cycleCount (z : Bool) : (s.setZ z).cycleCount = s.cycleCount := rfl
@[simp] theorem setZ_instrCount (z : Bool) : (s.setZ z).instrCount = s.instrCount := rfl
@[simp] theorem setZ_stall (z : Bool) : (s.setZ z).stall = s.stall := rfl
@[simp] theorem setZ_breakReq (z : Bool) : (s.setZ z).breakReq = s.breakReq := rfl
@[simp] theorem setZ_ctx (z : Bool) : (s.setZ z).ctx = s.ctx := rfl
@[simp] theorem setZ_hooks (z : Bool) : (s.setZ z).hooks = s.hooks := rfl
@[simp] theorem setZ_params (z : Bool) : (s.setZ z).params = s.params := rfl
@[simp] theorem setZ_mem (z : Bool) : (s.setZ z).mem = s.mem := rfl
@[simp] theorem setZ_trace (z : Bool) : (s.setZ z).trace = s.trace := rfl
@[simp] theorem setZ_script (z : Bool) : (s.setZ z).script = s.script := rfl
@[simp] theorem setZ_draws (z : Bool) : (s.setZ z).draws = s.draws := rfl
@[simp] theorem setZ_resetSeen (z : Bool) : (s.setZ z).resetSeen = s.resetSeen := rfl

@[simp] theorem setI_a (i : Bool) : (s.setI i).a = s.a := rfl
@[simp] theorem setI_x (i : Bool) : (s.setI i).x = s.x := rfl
@[simp] theorem setI_y (i : Bool) : (s.setI i).y = s.y := rfl
@[simp] theorem setI_sp (i : Bool) : (s.setI i).sp = s.sp := rfl
@[simp] theorem setI_pc (i : Bool) : (s.setI i).pc = s.pc := rfl
@[simp] theorem setI_p (i : Bool) : (s.setI i).p = { s.p with i := i } := rfl
@[simp] theorem setI_execState (i : Bool) : (s.setI i).execState = s.execState := rfl
@[simp] theorem setI_pendReset (i : Bool) : (s.setI i).pendReset = s.pendReset := rfl
@[simp] theorem setI_pendNmi (i : Bool) : (s.setI i).pendNmi = s.pendNmi := rfl
@[simp] theorem setI_irqLine (i : Bool) : (s.setI i).irqLine = s.irqLine := rfl
@[simp] theorem setI_committed (i : Bool) : (s.setI i).committed = s.committed := rfl
@[simp] theorem setI_cycleCount (i : Bool) : (s.setI i).cycleCount = s.cycleCount := rfl
@[simp] theorem setI_instrCount (i : Bool) : (s.setI i).instrCount = s.instrCount := rfl
@[simp] theorem setI_stall (i : Bool) : (s.setI i).stall = s.stall := rfl
@[simp] theorem setI_breakReq (i : Bool) : (s.setI i).breakReq = s.breakReq := rfl
@[simp] theorem setI_ctx (i : Bool) : (s.setI i).ctx = s.ctx := rfl
@[simp] theorem setI_hooks (i : Bool) : (s.setI i).hooks = s.hooks := rfl
@[simp] theorem setI_params (i : Bool) : (s.setI i).params = s.params := rfl
@[simp] theorem setI_mem (i : Bool) : (s.setI i).mem = s.mem := rfl
@[simp] theorem setI_trace (i : Bool) : (s.setI i).trace = s.trace := rfl
@[simp] theorem setI_script (i : Bool) : (s.setI i).script = s.script := rfl
@[simp] theorem setI_draws (i : Bool) : (s.setI i).draws = s.draws := rfl
@[simp] theorem setI_resetSeen (i : Bool) : (s.setI i).resetSeen = s.resetSeen := rfl

@[simp] theorem setD_a (d : Bool) : (s.setD d).a = s.a := rfl
@[simp] theorem setD_x (d : Bool) : (s.setD d).x = s.x := rfl
@[simp] theorem setD_y (d : Bool) : (s.setD d).y = s.y := rfl
@[simp] theorem setD_sp (d : Bool) : (s.setD d).sp = s.sp := rfl
@[simp] theorem setD_pc (d : Bool) : (s.setD d).pc = s.pc := rfl
@[simp] theorem setD_p (d : Bool) : (s.setD d).p = { s.p with d := d } := rfl
@[simp] theorem setD_execState (d : Bool) : (s.setD d).execState = s.execState := rfl
@[simp] theorem setD_pendReset (d : Bool) : (s.setD d).pendReset = s.pendReset := rfl
@[simp] theorem setD_pendNmi (d : Bool) : (s.setD d).pendNmi = s.pendNmi := rfl
@[simp] theorem setD_irqLine (d : Bool) : (s.setD d).irqLine = s.irqLine := rfl
@[simp] theorem setD_committed (d : Bool) : (s.setD d).committed = s.committed := rfl
@[simp] theorem setD_cycleCount (d : Bool) : (s.setD d).cycleCount = s.cycleCount := rfl
@[simp] theorem setD_instrCount (d : Bool) : (s.setD d).instrCount = s.instrCount := rfl
@[simp] theorem setD_stall (d : Bool) : (s.setD d).stall = s.stall := rfl
@[simp] theorem setD_breakReq (d : Bool) : (s.setD d).breakReq = s.breakReq := rfl
@[simp] theorem setD_ctx (d : Bool) : (s.setD d).ctx = s.ctx := rfl
@[simp] theorem setD_hooks (d : Bool) : (s.setD d).hooks = s.hooks := rfl
@[simp] theorem setD_params (d : Bool) : (s.setD d).params = s.params := rfl
@[simp] theorem setD_mem (d : Bool) : (s.setD d).mem = s.mem := rfl
@[simp] theorem setD_trace (d : Bool) : (s.setD d).trace = s.trace := rfl
@[simp] theorem setD_script (d : Bool) : (s.setD d).script = s.script := rfl
@[simp] theorem setD_draws (d : Bool) : (s.setD d).draws = s.draws := rfl
@[simp] theorem setD_resetSeen (d : Bool) : (s.setD d).resetSeen = s.resetSeen := rfl

@[simp] theorem setV_a (v : Bool) : (s.setV v).a = s.a := rfl
@[simp] theorem setV_x (v : Bool) : (s.setV v).x = s.x := rfl
@[simp] theorem setV_y (v : Bool) : (s.setV v).y = s.y := rfl
@[simp] theorem setV_sp (v : Bool) : (s.setV v).sp = s.sp := rfl
@[simp] theorem setV_pc (v : Bool) : (s.setV v).pc = s.pc := rfl
@[simp] theorem setV_p (v : Bool) : (s.setV v).p = { s.p with v := v } := rfl
@[simp] theorem setV_execState (v : Bool) : (s.setV v).execState = s.execState := rfl
@[simp] theorem setV_pendReset (v : Bool) : (s.setV v).pendReset = s.pendReset := rfl
@[simp] theorem setV_pendNmi (v : Bool) : (s.setV v).pendNmi = s.pendNmi := rfl
@[simp] theorem setV_irqLine (v : Bool) : (s.setV v).irqLine = s.irqLine := rfl
@[simp] theorem setV_committed (v : Bool) : (s.setV v).committed = s.committed := rfl
@[simp] theorem setV_cycleCount (v : Bool) : (s.setV v).cycleCount = s.cycleCount := rfl
@[simp] theorem setV_instrCount (v : Bool) : (s.setV v).instrCount = s.instrCount := rfl
@[simp] theorem setV_stall (v : Bool) : (s.setV v).stall = s.stall := rfl
@[simp] theorem setV_breakReq (v : Bool) : (s.setV v).breakReq = s.breakReq := rfl
@[simp] theorem setV_ctx (v : Bool) : (s.setV v).ctx = s.ctx := rfl
@[simp] theorem setV_hooks (v : Bool) : (s.setV v).hooks = s.hooks := rfl
@[simp] theorem setV_params (v : Bool) : (s.setV v).params = s.params := rfl
@[simp] theorem setV_mem (v : Bool) : (s.setV v).mem = s.mem := rfl
@[simp] theorem setV_trace (v : Bool) : (s.setV v).trace = s.trace := rfl
@[simp] theorem setV_script (v : Bool) : (s.setV v).script = s.script := rfl
@[simp] theorem setV_draws (v : Bool) : (s.setV v).draws = s.draws := rfl
@[simp] theorem setV_resetSeen (v : Bool) : (s.setV v).resetSeen = s.resetSeen := rfl

@[simp] theorem loadA_a (v : Byte) : (s.loadA v).a = v := rfl
@[simp] theorem loadA_x (v : Byte) : (s.loadA v).x = s.x := rfl
@[simp] theorem loadA_y (v : Byte) : (s.loadA v).y = s.y := rfl
@[simp] theorem loadA_sp (v : Byte) : (s.loadA v).sp = s.sp := rfl
@[simp] theorem loadA_pc (v : Byte) : (s.loadA v).pc = s.pc := rfl
@[simp] theorem loadA_p (v : Byte) : (s.loadA v).p = s.p.setNZ v := rfl
@[simp] theorem loadA_execState (v : Byte) : (s.loadA v).execState = s.execState := rfl
@[simp] theorem loadA_pendReset (v : Byte) : (s.loadA v).pendReset = s.pendReset := rfl
@[simp] theorem loadA_pendNmi (v : Byte) : (s.loadA v).pendNmi = s.pendNmi := rfl
@[simp] theorem loadA_irqLine (v : Byte) : (s.loadA v).irqLine = s.irqLine := rfl
@[simp] theorem loadA_committed (v : Byte) : (s.loadA v).committed = s.committed := rfl
@[simp] theorem loadA_cycleCount (v : Byte) : (s.loadA v).cycleCount = s.cycleCount := rfl
@[simp] theorem loadA_instrCount (v : Byte) : (s.loadA v).instrCount = s.instrCount := rfl
@[simp] theorem loadA_stall (v : Byte) : (s.loadA v).stall = s.stall := rfl
@[simp] theorem loadA_breakReq (v : Byte) : (s.loadA v).breakReq = s.breakReq := rfl
@[simp] theorem loadA_ctx (v : Byte) : (s.loadA v).ctx = s.ctx := rfl
@[simp] theorem loadA_hooks (v : Byte) : (s.loadA v).hooks = s.hooks := rfl
@[simp] theorem loadA_params (v : Byte) : (s.loadA v).params = s.params := rfl
@[simp] theorem loadA_mem (v : Byte) : (s.loadA v).mem = s.mem := rfl
@[simp] theorem loadA_trace (v : Byte) : (s.loadA v).trace = s.trace := rfl
@[simp] theorem loadA_script (v : Byte) : (s.loadA v).script = s.script := rfl
@[simp] theorem loadA_draws (v : Byte) : (s.loadA v).draws = s.draws := rfl
@[simp] theorem loadA_resetSeen (v : Byte) : (s.loadA v).resetSeen = s.resetSeen := rfl

@[simp] theorem loadX_a (v : Byte) : (s.loadX v).a = s.a := rfl
@[simp] theorem loadX_x (v : Byte) : (s.loadX v).x = v := rfl
@[simp] theorem loadX_y (v : Byte) : (s.loadX v).y = s.y := rfl
@[simp] theorem loadX_sp (v : Byte) : (s.loadX v).sp = s.sp := rfl
@[simp] theorem loadX_pc (v : Byte) : (s.loadX v).pc = s.pc := rfl
@[simp] theorem loadX_p (v : Byte) : (s.loadX v).p = s.p.setNZ v := rfl
@[simp] theorem loadX_execState (v : Byte) : (s.loadX v).execState = s.execState := rfl
@[simp] theorem loadX_pendReset (v : Byte) : (s.loadX v).pendReset = s.pendReset := rfl
@[simp] theorem loadX_pendNmi (v : Byte) : (s.loadX v).pendNmi = s.pendNmi := rfl
@[simp] theorem loadX_irqLine (v : Byte) : (s.loadX v).irqLine = s.irqLine := rfl
@[simp] theorem loadX_committed (v : Byte) : (s.loadX v).committed = s.committed := rfl
@[simp] theorem loadX_cycleCount (v : Byte) : (s.loadX v).cycleCount = s.cycleCount := rfl
@[simp] theorem loadX_instrCount (v : Byte) : (s.loadX v).instrCount = s.instrCount := rfl
@[simp] theorem loadX_stall (v : Byte) : (s.loadX v).stall = s.stall := rfl
@[simp] theorem loadX_breakReq (v : Byte) : (s.loadX v).breakReq = s.breakReq := rfl
@[simp] theorem loadX_ctx (v : Byte) : (s.loadX v).ctx = s.ctx := rfl
@[simp] theorem loadX_hooks (v : Byte) : (s.loadX v).hooks = s.hooks := rfl
@[simp] theorem loadX_params (v : Byte) : (s.loadX v).params = s.params := rfl
@[simp] theorem loadX_mem (v : Byte) : (s.loadX v).mem = s.mem := rfl
@[simp] theorem loadX_trace (v : Byte) : (s.loadX v).trace = s.trace := rfl
@[simp] theorem loadX_script (v : Byte) : (s.loadX v).script = s.script := rfl
@[simp] theorem loadX_draws (v : Byte) : (s.loadX v).draws = s.draws := rfl
@[simp] theorem loadX_resetSeen (v : Byte) : (s.loadX v).resetSeen = s.resetSeen := rfl

@[simp] theorem loadY_a (v : Byte) : (s.loadY v).a = s.a := rfl
@[simp] theorem loadY_x (v : Byte) : (s.loadY v).x = s.x := rfl
@[simp] theorem loadY_y (v : Byte) : (s.loadY v).y = v := rfl
@[simp] theorem loadY_sp (v : Byte) : (s.loadY v).sp = s.sp := rfl
@[simp] theorem loadY_pc (v : Byte) : (s.loadY v).pc = s.pc := rfl
@[simp] theorem loadY_p (v : Byte) : (s.loadY v).p = s.p.setNZ v := rfl
@[simp] theorem loadY_execState (v : Byte) : (s.loadY v).execState = s.execState := rfl
@[simp] theorem loadY_pendReset (v : Byte) : (s.loadY v).pendReset = s.pendReset := rfl
@[simp] theorem loadY_pendNmi (v : Byte) : (s.loadY v).pendNmi = s.pendNmi := rfl
@[simp] theorem loadY_irqLine (v : Byte) : (s.loadY v).irqLine = s.irqLine := rfl
@[simp] theorem loadY_committed (v : Byte) : (s.loadY v).committed = s.committed := rfl
@[simp] theorem loadY_cycleCount (v : Byte) : (s.loadY v).cycleCount = s.cycleCount := rfl
@[simp] theorem loadY_instrCount (v : Byte) : (s.loadY v).instrCount = s.instrCount := rfl
@[simp] theorem loadY_stall (v : Byte) : (s.loadY v).stall = s.stall := rfl
@[simp] theorem loadY_breakReq (v : Byte) : (s.loadY v).breakReq = s.breakReq := rfl
@[simp] theorem loadY_ctx (v : Byte) : (s.loadY v).ctx = s.ctx := rfl
@[simp] theorem loadY_hooks (v : Byte) : (s.loadY v).hooks = s.hooks := rfl
@[simp] theorem loadY_params (v : Byte) : (s.loadY v).params = s.params := rfl
@[simp] theorem loadY_mem (v : Byte) : (s.loadY v).mem = s.mem := rfl
@[simp] theorem loadY_trace (v : Byte) : (s.loadY v).trace = s.trace := rfl
@[simp] theorem loadY_script (v : Byte) : (s.loadY v).script = s.script := rfl
@[simp] theorem loadY_draws (v : Byte) : (s.loadY v).draws = s.draws := rfl
@[simp] theorem loadY_resetSeen (v : Byte) : (s.loadY v).resetSeen = s.resetSeen := rfl

end Sys2Proof.Machine.State
end

