-- ==== Sys2Proof/Laws/Host.lean ====
section
/-! SUPPORT. What the host's acts can do to the core: they reach the latch, the stall budget, the break request,
`V` and memory, and nothing else; and a silent host does nothing. -/

namespace Sys2Proof.Machine.State

@[simp] theorem apply_a (s : State) (x : HostAct) : (x.apply s).a = s.a := by cases x <;> rfl
@[simp] theorem apply_x (s : State) (x : HostAct) : (x.apply s).x = s.x := by cases x <;> rfl
@[simp] theorem apply_y (s : State) (x : HostAct) : (x.apply s).y = s.y := by cases x <;> rfl
@[simp] theorem apply_sp (s : State) (x : HostAct) : (x.apply s).sp = s.sp := by cases x <;> rfl
@[simp] theorem apply_pc (s : State) (x : HostAct) : (x.apply s).pc = s.pc := by cases x <;> rfl
@[simp] theorem apply_execState (s : State) (x : HostAct) : (x.apply s).execState = s.execState := by cases x <;> rfl
@[simp] theorem apply_committed (s : State) (x : HostAct) : (x.apply s).committed = s.committed := by cases x <;> rfl
@[simp] theorem apply_cycleCount (s : State) (x : HostAct) : (x.apply s).cycleCount = s.cycleCount := by cases x <;> rfl
@[simp] theorem apply_instrCount (s : State) (x : HostAct) : (x.apply s).instrCount = s.instrCount := by cases x <;> rfl
@[simp] theorem apply_ctx (s : State) (x : HostAct) : (x.apply s).ctx = s.ctx := by cases x <;> rfl
@[simp] theorem apply_hooks (s : State) (x : HostAct) : (x.apply s).hooks = s.hooks := by cases x <;> rfl
@[simp] theorem apply_params (s : State) (x : HostAct) : (x.apply s).params = s.params := by cases x <;> rfl
@[simp] theorem apply_trace (s : State) (x : HostAct) : (x.apply s).trace = s.trace := by cases x <;> rfl
@[simp] theorem apply_script (s : State) (x : HostAct) : (x.apply s).script = s.script := by cases x <;> rfl
@[simp] theorem apply_draws (s : State) (x : HostAct) : (x.apply s).draws = s.draws := by cases x <;> rfl
@[simp] theorem apply_resetSeen (s : State) (x : HostAct) : (x.apply s).resetSeen = s.resetSeen := by cases x <;> rfl

@[simp] theorem runActs_a (s : State) (l : List HostAct) : (s.runActs l).a = s.a := by
  induction l generalizing s with
  | nil => rfl
  | cons x l ih => exact (ih (x.apply s)).trans (apply_a s x)
@[simp] theorem runActs_x (s : State) (l : List HostAct) : (s.runActs l).x = s.x := by
  induction l generalizing s with
  | nil => rfl
  | cons x l ih => exact (ih (x.apply s)).trans (apply_x s x)
@[simp] theorem runActs_y (s : State) (l : List HostAct) : (s.runActs l).y = s.y := by
  induction l generalizing s with
  | nil => rfl
  | cons x l ih => exact (ih (x.apply s)).trans (apply_y s x)
@[simp] theorem runActs_sp (s : State) (l : List HostAct) : (s.runActs l).sp = s.sp := by
  induction l generalizing s with
  | nil => rfl
  | cons x l ih => exact (ih (x.apply s)).trans (apply_sp s x)
@[simp] theorem runActs_pc (s : State) (l : List HostAct) : (s.runActs l).pc = s.pc := by
  induction l generalizing s with
  | nil => rfl
  | cons x l ih => exact (ih (x.apply s)).trans (apply_pc s x)
@[simp] theorem runActs_execState (s : State) (l : List HostAct) : (s.runActs l).execState = s.execState := by
  induction l generalizing s with
  | nil => rfl
  | cons x l ih => exact (ih (x.apply s)).trans (apply_execState s x)
@[simp] theorem runActs_committed (s : State) (l : List HostAct) : (s.runActs l).committed = s.committed := by
  induction l generalizing s with
  | nil => rfl
  | cons x l ih => exact (ih (x.apply s)).trans (apply_committed s x)
@[simp] theorem runActs_cycleCount (s : State) (l : List HostAct) : (s.runActs l).cycleCount = s.cycleCount := by
  induction l generalizing s with
  | nil => rfl
  | cons x l ih => exact (ih (x.apply s)).trans (apply_cycleCount s x)
@[simp] theorem runActs_instrCount (s : State) (l : List HostAct) : (s.runActs l).instrCount = s.instrCount := by
  induction l generalizing s with
  | nil => rfl
  | cons x l ih => exact (ih (x.apply s)).trans (apply_instrCount s x)
@[simp] theorem runActs_ctx (s : State) (l : List HostAct) : (s.runActs l).ctx = s.ctx := by
  induction l generalizing s with
  | nil => rfl
  | cons x l ih => exact (ih (x.apply s)).trans (apply_ctx s x)
@[simp] theorem runActs_hooks (s : State) (l : List HostAct) : (s.runActs l).hooks = s.hooks := by
  induction l generalizing s with
  | nil => rfl
  | cons x l ih => exact (ih (x.apply s)).trans (apply_hooks s x)
@[simp] theorem runActs_params (s : State) (l : List HostAct) : (s.runActs l).params = s.params := by
  induction l generalizing s with
  | nil => rfl
  | cons x l ih => exact (ih (x.apply s)).trans (apply_params s x)
@[simp] theorem runActs_trace (s : State) (l : List HostAct) : (s.runActs l).trace = s.trace := by
  induction l generalizing s with
  | nil => rfl
  | cons x l ih => exact (ih (x.apply s)).trans (apply_trace s x)
@[simp] theorem runActs_script (s : State) (l : List HostAct) : (s.runActs l).script = s.script := by
  induction l generalizing s with
  | nil => rfl
  | cons x l ih => exact (ih (x.apply s)).trans (apply_script s x)
@[simp] theorem runActs_draws (s : State) (l : List HostAct) : (s.runActs l).draws = s.draws := by
  induction l generalizing s with
  | nil => rfl
  | cons x l ih => exact (ih (x.apply s)).trans (apply_draws s x)
@[simp] theorem runActs_resetSeen (s : State) (l : List HostAct) : (s.runActs l).resetSeen = s.resetSeen := by
  induction l generalizing s with
  | nil => rfl
  | cons x l ih => exact (ih (x.apply s)).trans (apply_resetSeen s x)

/-- Of the flags, an act changes at most `V`, and only to 1. -/
theorem apply_p (s : State) (x : HostAct) : (x.apply s).p = s.p ∨ (x.apply s).p = { s.p with v := true } := by
  cases x <;> first | exact .inl rfl | exact .inr rfl

theorem runActs_p (s : State) (l : List HostAct) :
    (s.runActs l).p = s.p ∨ (s.runActs l).p = { s.p with v := true } := by
  induction l generalizing s with
  | nil => exact .inl rfl
  | cons x l ih =>
    have hrun : (s.runActs (x :: l)) = (x.apply s).runActs l := rfl
    rw [hrun]
    rcases ih (x.apply s) with h | h <;> rcases apply_p s x with h' | h' <;> rw [h, h'] <;> simp

@[simp] theorem runActs_p_n (s : State) (l : List HostAct) : (s.runActs l).p.n = s.p.n := by
  rcases runActs_p s l with h | h <;> rw [h]
@[simp] theorem runActs_p_d (s : State) (l : List HostAct) : (s.runActs l).p.d = s.p.d := by
  rcases runActs_p s l with h | h <;> rw [h]
@[simp] theorem runActs_p_i (s : State) (l : List HostAct) : (s.runActs l).p.i = s.p.i := by
  rcases runActs_p s l with h | h <;> rw [h]
@[simp] theorem runActs_p_z (s : State) (l : List HostAct) : (s.runActs l).p.z = s.p.z := by
  rcases runActs_p s l with h | h <;> rw [h]
@[simp] theorem runActs_p_c (s : State) (l : List HostAct) : (s.runActs l).p.c = s.p.c := by
  rcases runActs_p s l with h | h <;> rw [h]

theorem apply_memWf {s : State} (x : HostAct) (h : s.mem.wf = true) : (x.apply s).mem.wf = true := by
  cases x <;> first | exact h | exact Memory.wf_write_word _ _ h

/-- The host's acts keep memory canonical. -/
theorem runActs_memWf {s : State} (l : List HostAct) (h : s.mem.wf = true) : (s.runActs l).mem.wf = true := by
  induction l generalizing s with
  | nil => exact h
  | cons x l ih => exact ih (apply_memWf x h)

@[simp] theorem runActs_nil (s : State) : s.runActs [] = s := rfl

/-- A silent host makes no act. -/
theorem actsAt_quiet {s : State} (h : s.script = []) (m : Moment) : s.actsAt m = [] := by simp [actsAt, h]

theorem hostAnswer_quiet {s : State} (h : s.script = []) (m : Byte) : s.hostAnswer m = m := by
  simp [hostAnswer, actsAt_quiet h, answerIn]

theorem hookAnswer_quiet {s : State} (h : s.script = []) : s.hookAnswer = false := by
  simp [hookAnswer, actsAt_quiet h]

/-- With a silent host an access is tallied and nothing else happens. -/
theorem access_quiet {s : State} (h : s.script = []) (c : HostCall) : s.access c = s.tally c := by
  simp [access, actsAt_quiet (s := s.tally c) h]

@[simp] theorem access_a (s : State) (c : HostCall) : (s.access c).a = s.a := by simp [access]
@[simp] theorem access_x (s : State) (c : HostCall) : (s.access c).x = s.x := by simp [access]
@[simp] theorem access_y (s : State) (c : HostCall) : (s.access c).y = s.y := by simp [access]
@[simp] theorem access_sp (s : State) (c : HostCall) : (s.access c).sp = s.sp := by simp [access]
@[simp] theorem access_pc (s : State) (c : HostCall) : (s.access c).pc = s.pc := by simp [access]
@[simp] theorem access_execState (s : State) (c : HostCall) : (s.access c).execState = s.execState := by simp [access]
@[simp] theorem access_committed (s : State) (c : HostCall) : (s.access c).committed = s.committed := by simp [access]
@[simp] theorem access_cycleCount (s : State) (c : HostCall) : (s.access c).cycleCount = s.cycleCount + 1 := by simp [access]
@[simp] theorem access_instrCount (s : State) (c : HostCall) : (s.access c).instrCount = s.instrCount := by simp [access]
@[simp] theorem access_ctx (s : State) (c : HostCall) : (s.access c).ctx = { s.ctx with cycle := s.ctx.cycle + 1 } := by simp [access]
@[simp] theorem access_hooks (s : State) (c : HostCall) : (s.access c).hooks = s.hooks := by simp [access]
@[simp] theorem access_params (s : State) (c : HostCall) : (s.access c).params = s.params := by simp [access]
@[simp] theorem access_trace (s : State) (c : HostCall) : (s.access c).trace = c :: s.trace := by simp [access]
@[simp] theorem access_script (s : State) (c : HostCall) : (s.access c).script = s.script := by simp [access]
@[simp] theorem access_draws (s : State) (c : HostCall) : (s.access c).draws = s.draws := by simp [access]
@[simp] theorem access_resetSeen (s : State) (c : HostCall) : (s.access c).resetSeen = s.resetSeen := by simp [access]

theorem access_memWf {s : State} (c : HostCall) (h : s.mem.wf = true) : (s.access c).mem.wf = true :=
  runActs_memWf _ h

end Sys2Proof.Machine.State
end

