-- ==== Sys2Proof/Laws/Action.lean ====
section
/-! SUPPORT. Performing a cycle and running an action: under a silent host each cycle is an explicit state, and
under any host a cycle keeps memory canonical, counts one access, and leaves the registers alone. -/

namespace Sys2Proof.Machine

@[simp] theorem run_done (s : State) : (Action.done s).run = s := rfl

theorem run_cycle (op : BusOp) (s : State) (k : Byte → State → Action) :
    (Action.cycle op s k).run = (k (perform op s).1 (perform op s).2).run := rfl

@[simp] theorem run_ite (c : Prop) [Decidable c] (a b : Action) :
    (if c then a else b).run = if c then a.run else b.run := by split <;> rfl

@[simp] theorem mapState_state (f : State → State) (a : Action) : (a.mapState f).state = f a.state := by cases a <;> rfl
@[simp] theorem mapState_active (f : State → State) (a : Action) : (a.mapState f).active = a.active := by cases a <;> rfl

@[simp] theorem refetch_state (a : Action) : a.refetch.state = a.state := by
  cases a with
  | done s => rfl
  | cycle op s k => cases op <;> rfl

@[simp] theorem refetch_active (a : Action) : a.refetch.active = a.active := by
  cases a with
  | done s => rfl
  | cycle op s k => cases op <;> rfl

@[simp] theorem onState_state (f : State → State) (a : Action) : (a.onState f).state = f a.state := by simp [Action.onState]
@[simp] theorem onState_active (f : State → State) (a : Action) : (a.onState f).active = a.active := by simp [Action.onState]

/-- The byte a fetch is made with is the one memory holds in its own cycle (R74), now and in every later cycle. -/
def Action.FetchesMemory : Action → Prop
  | .done _ => True
  | .cycle op s k =>
    (∀ d, op = .fetch d → d = s.mem.read s.pc.toNat) ∧ (k (perform op s).1 (perform op s).2).FetchesMemory

/-- After whatever the host did between two cycles, every later fetch is of memory as it then stands (R74). -/
theorem refetch_fetchesMemory (a : Action) : a.refetch.FetchesMemory := by
  induction a with
  | done s => trivial
  | cycle op s k ih => cases op <;> exact ⟨fun _ h => by cases h <;> rfl, ih _ _⟩

/-- Where every fetch is of memory already, looking again changes nothing. -/
theorem refetch_run {a : Action} (h : a.FetchesMemory) : a.refetch.run = a.run := by
  induction a with
  | done s => rfl
  | cycle op s k ih =>
    obtain ⟨hd, hk⟩ := h
    cases op with
    | fetch d =>
      obtain rfl := hd d rfl
      exact ih _ _ hk
    | _ => exact ih _ _ hk

section Quiet

variable {s : State} (h : s.script = [])
include h

theorem run_read (a : Word) (k : Byte → State → Action) :
    (Action.cycle (.read a) s k).run = (k (s.mem.read a.toNat) (s.tally (.read a))).run := by
  rw [run_cycle]
  simp only [perform, State.busRead, State.hostAnswer_quiet h, State.access_quiet h]

theorem run_fetch (d : Byte) (k : Byte → State → Action) :
    (Action.cycle (.fetch d) s k).run = (k d ((s.tally (.read s.pc)).setPc (s.pc + 1))).run := by
  rw [run_cycle]
  simp only [perform, State.busFetch, State.hostAnswer_quiet h, State.access_quiet h, State.tally_pc]

theorem run_write (a : Word) (v : Byte) (k : Byte → State → Action) :
    (Action.cycle (.write a v) s k).run =
      (k 0 ((s.setMem (s.mem.write a.toNat v)).tally (.write a v))).run := by
  rw [run_cycle]
  simp only [perform, State.busWrite, State.access_quiet (s := s.setMem (s.mem.write a.toNat v)) h]

theorem run_writeStatus (a : Word) (b : Bool) (k : Byte → State → Action) :
    (Action.cycle (.writeStatus a b) s k).run =
      (k 0 ((s.setMem (s.mem.write a.toNat (s.p.statusByte b))).tally (.write a (s.p.statusByte b)))).run :=
  run_write h a _ k

theorem run_idle (a : Word) (k : State → Action) : (idle a s k).run = (k (s.tally (.read a))).run :=
  run_read h a _

theorem run_start (op : Byte) (k : State → Action) :
    (start op s k).run = (k (((s.begin op).tally (.read s.pc)).setPc (s.pc + 1))).run :=
  run_fetch (s := s.begin op) h op _

theorem run_last_read (a : Word) (k : Byte → State → Action) :
    (last (.read a) s k).run = (k (s.mem.read a.toNat) (s.sample.tally (.read a))).run :=
  run_read (s := s.sample) h a k

theorem run_last_fetch (d : Byte) (k : Byte → State → Action) :
    (last (.fetch d) s k).run = (k d ((s.sample.tally (.read s.pc)).setPc (s.pc + 1))).run :=
  run_fetch (s := s.sample) h d k

theorem run_last_write (a : Word) (v : Byte) (k : Byte → State → Action) :
    (last (.write a v) s k).run = (k 0 ((s.sample.setMem (s.mem.write a.toNat v)).tally (.write a v))).run :=
  run_write (s := s.sample) h a v k

theorem run_push (v : Byte) (k : State → Action) :
    (push v s k).run =
      (k (((s.setMem (s.mem.write s.stackAddr.toNat v)).tally (.write s.stackAddr v)).setSp (s.sp - 1))).run :=
  run_write h _ v _

theorem run_pushStatus (b : Bool) (k : State → Action) :
    (pushStatus b s k).run =
      (k (((s.setMem (s.mem.write s.stackAddr.toNat (s.p.statusByte b))).tally
        (.write s.stackAddr (s.p.statusByte b))).setSp (s.sp - 1))).run :=
  run_writeStatus h _ b _

theorem run_pull (k : Byte → State → Action) :
    (pull s k).run =
      (k (s.mem.read (s.setSp (s.sp + 1)).stackAddr.toNat)
        ((s.setSp (s.sp + 1)).tally (.read (s.setSp (s.sp + 1)).stackAddr))).run :=
  run_read (s := s.setSp (s.sp + 1)) h (s.setSp (s.sp + 1)).stackAddr k

/-- With a silent host the end-of-instruction point discards the context, counts, and calls the hook. -/
theorem endOfInstruction_quiet :
    s.endOfInstruction = if s.hooks.eoi then s.retire.call .eoiHook else s.retire := by
  have hacts : ∀ m, s.retire.actsAt m = [] := fun m => State.actsAt_quiet (s := s.retire) h m
  simp [State.endOfInstruction, State.eoiHook, hacts]

theorem run_finish : (finish s).run = if s.hooks.eoi then s.retire.call .eoiHook else s.retire :=
  endOfInstruction_quiet h

end Quiet

end Sys2Proof.Machine
end

