-- ==== Sys2Proof/Laws/Operands.lean ====
section
/-! SUPPORT. What the resolvers and templates do under a silent host, said once: a resolver makes the calls of its
mode and answers its effective address; a template then applies its operation. -/

namespace Sys2Proof.Machine

/-- The state after these calls, with nothing but the program counter, the record and the context changed. -/
def State.spent (s : State) (calls : List HostCall) (pc : Word) (c : Ctx) : State :=
  { s with
    pc := pc, trace := calls.reverse ++ s.trace, cycleCount := s.cycleCount + calls.length, ctx := c }

namespace State

variable (s : State) (l : List HostCall) (w : Word) (c : Ctx)

@[simp] theorem spent_a : (s.spent l w c).a = s.a := rfl
@[simp] theorem spent_x : (s.spent l w c).x = s.x := rfl
@[simp] theorem spent_y : (s.spent l w c).y = s.y := rfl
@[simp] theorem spent_sp : (s.spent l w c).sp = s.sp := rfl
@[simp] theorem spent_pc : (s.spent l w c).pc = w := rfl
@[simp] theorem spent_p : (s.spent l w c).p = s.p := rfl
@[simp] theorem spent_execState : (s.spent l w c).execState = s.execState := rfl
@[simp] theorem spent_pendReset : (s.spent l w c).pendReset = s.pendReset := rfl
@[simp] theorem spent_pendNmi : (s.spent l w c).pendNmi = s.pendNmi := rfl
@[simp] theorem spent_irqLine : (s.spent l w c).irqLine = s.irqLine := rfl
@[simp] theorem spent_committed : (s.spent l w c).committed = s.committed := rfl
@[simp] theorem spent_cycleCount : (s.spent l w c).cycleCount = s.cycleCount + l.length := rfl
@[simp] theorem spent_instrCount : (s.spent l w c).instrCount = s.instrCount := rfl
@[simp] theorem spent_stall : (s.spent l w c).stall = s.stall := rfl
@[simp] theorem spent_breakReq : (s.spent l w c).breakReq = s.breakReq := rfl
@[simp] theorem spent_ctx : (s.spent l w c).ctx = c := rfl
@[simp] theorem spent_hooks : (s.spent l w c).hooks = s.hooks := rfl
@[simp] theorem spent_params : (s.spent l w c).params = s.params := rfl
@[simp] theorem spent_mem : (s.spent l w c).mem = s.mem := rfl
@[simp] theorem spent_trace : (s.spent l w c).trace = l.reverse ++ s.trace := rfl
@[simp] theorem spent_script : (s.spent l w c).script = s.script := rfl
@[simp] theorem spent_draws : (s.spent l w c).draws = s.draws := rfl
@[simp] theorem spent_resetSeen : (s.spent l w c).resetSeen = s.resetSeen := rfl

theorem spent_spent (l' : List HostCall) (w' : Word) (c' : Ctx) :
    (s.spent l w c).spent l' w' c' = s.spent (l ++ l') w' c' := by
  simp [spent, Nat.add_assoc]

theorem tally_eq_spent (x : HostCall) : s.tally x = s.spent [x] s.pc { s.ctx with cycle := s.ctx.cycle + 1 } := rfl

theorem setPc_spent (w' : Word) : (s.spent l w c).setPc w' = s.spent l w' c := rfl

theorem latchEa_spent (ea : Word) (page : Bool) :
    (s.spent l w c).latchEa ea page = s.spent l w { c with ea := ea, page := page } := rfl

theorem latchAux_spent (v : Word) : (s.spent l w c).latchAux v = s.spent l w { c with aux := v } := rfl

theorem latchData_spent (v : Byte) : (s.spent l w c).latchData v = s.spent l w { c with data := v } := rfl

end State

/-- The program counter after a mode's resolver: past the operand bytes, except for immediate, whose byte the
data access fetches. -/
def Mode.pcAfter (m : Mode) (pc : Word) : Word :=
  match m with
  | .imm _ => pc + 1
  | .abs _ _ | .absx _ _ | .absy _ _ => pc + 3
  | _ => pc + 2

theorem start_eq_spent (s : State) (op : Byte) :
    ((s.begin op).tally (.read s.pc)).setPc (s.pc + 1) =
      s.spent [.read s.pc] (s.pc + 1) { Ctx.idle with active := true, opcode := op, cycle := 2 } := rfl

theorem word_one_one (w : Word) : w + 1 + 1 = w + 2 := by bv_omega
theorem word_two_one (w : Word) : w + 2 + 1 = w + 3 := by bv_omega
theorem word_two_sub (w : Word) : w + 2 - 1 = w + 1 := by bv_omega
theorem word_three_sub (w : Word) : w + 3 - 1 = w + 2 := by bv_omega
theorem run_spent_read {s : State} {l w c} (h : s.script = []) (a : Word) (k : Byte → State → Action) :
    (Action.cycle (.read a) (s.spent l w c) k).run =
      (k (s.byteAt a) (s.spent (l ++ [.read a]) w { c with cycle := c.cycle + 1 })).run := by
  rw [run_read (s := s.spent l w c) h, State.tally_eq_spent, State.spent_spent]; rfl
theorem run_spent_idle {s : State} {l w c} (h : s.script = []) (a : Word) (k : State → Action) :
    (idle a (s.spent l w c) k).run = (k (s.spent (l ++ [.read a]) w { c with cycle := c.cycle + 1 })).run :=
  run_spent_read h a _
theorem run_spent_fetch {s : State} {l w c} (h : s.script = []) (d : Byte) (k : Byte → State → Action) :
    (Action.cycle (.fetch d) (s.spent l w c) k).run =
      (k d (s.spent (l ++ [.read w]) (w + 1) { c with cycle := c.cycle + 1 })).run := by
  rw [run_fetch (s := s.spent l w c) h, State.tally_eq_spent, State.spent_spent, State.setPc_spent]; rfl
theorem run_start_spent {s : State} (h : s.script = []) (op : Byte) (k : State → Action) :
    (start op s k).run =
      (k (s.spent [.read s.pc] (s.pc + 1) { Ctx.idle with active := true, opcode := op, cycle := 2 })).run := by
  rw [run_start h, start_eq_spent]

theorem run_indexBy {s : State} {l w c} (h : s.script = []) (kind : Kind) (base : Word) (index : Byte) (k : Word → State → Action) :
    ∃ c', (indexBy kind base index (s.spent l w c) k).run =
      (k (indexed base index) (s.spent (l ++ if kind.deadRead (pagePenalty base index) then [.read (wrongAddr base index)] else []) w c')).run := by
  simp only [indexBy, State.latchAux_spent, State.latchEa_spent]
  split
  · exact ⟨_, run_spent_idle h _ _⟩
  · exact ⟨_, by simp only [List.append_nil]; rfl⟩

theorem run_resolve {s : State} (h : s.script = []) (op : Byte) (m : Mode) (kind : Kind)
    (k : Word → State → Action) :
    ∃ c, (start op s fun t => resolve m kind t k).run =
      (k (m.ea s) (s.spent (.read s.pc :: m.resolverCalls kind s) (m.pcAfter s.pc) c)).run := by
  cases m <;>
    simp only [run_start_spent h, resolve, fetchAbs, zpIndexed, zpPointer, run_spent_fetch h, run_spent_idle h, run_spent_read h,
      State.latchEa_spent, State.latchAux_spent,
      Mode.ea, Mode.resolverCalls, Mode.pcAfter, Mode.deadReads, Mode.base, Mode.index, State.zpPointerAt,
      List.cons_append, List.nil_append, word_one_one, word_two_one, word_two_sub,
      State.spent_pc, State.spent_x, State.spent_y]
  case absx =>  exact run_indexBy (l := [_, _, _]) h _ _ _ _
  case absy =>  exact run_indexBy (l := [_, _, _]) h _ _ _ _
  case zpiy =>  exact run_indexBy (l := [_, _, _, _]) h _ _ _ _
  all_goals exact ⟨_, rfl⟩
end Sys2Proof.Machine
end

