-- ==== Sys2Proof/Laws/Templates.lean ====
section
/-! SUPPORT. What each access template does under a silent host, said once: the state its operation is applied
to, and how the statement that an instruction completes follows from it. -/

namespace Sys2Proof.Machine

/-- `spent` after the interrupt sample of an instruction's penultimate cycle. -/
def State.spentSampled (s : State) (calls : List HostCall) (pc : Word) (co : Commit) (c : Ctx) : State :=
  (s.spent calls pc c).setCommitted co

theorem sample_spent (s : State) (l : List HostCall) (w : Word) (c : Ctx) :
    (s.spent l w c).sample = s.spentSampled l w s.sampled c := rfl

theorem run_last_spent_read {s : State} {l w c} (h : s.script = []) (a : Word) (k : Byte → State → Action) :
    (last (.read a) (s.spent l w c) k).run =
      (k (s.byteAt a) (s.spentSampled (l ++ [.read a]) w s.sampled { c with cycle := c.cycle + 1 })).run := by
  rw [run_last_read (s := s.spent l w c) h]
  simp [State.sample, State.spentSampled, State.spent, State.tally, State.call, State.setCommitted, Nat.add_assoc]
  rfl

theorem run_last_spent_fetch {s : State} {l w c} (h : s.script = []) (d : Byte) (k : Byte → State → Action) :
    (last (.fetch d) (s.spent l w c) k).run =
      (k d (s.spentSampled (l ++ [.read w]) (w + 1) s.sampled { c with cycle := c.cycle + 1 })).run := by
  rw [run_last_fetch (s := s.spent l w c) h]
  simp [State.sample, State.spentSampled, State.spent, State.tally, State.call, State.setCommitted, State.setPc, Nat.add_assoc]
  rfl

/-- The program counter after an instruction with this memory operand. -/
def Mode.pcNext (m : Mode) (pc : Word) : Word :=
  match m with
  | .abs _ _ | .absx _ _ | .absy _ _ => pc + 3
  | _ => pc + 2

theorem run_readInstr {s : State} (h : s.script = []) (op : Byte) (m : Mode) (f : Byte → State → State) :
    ∃ c, (readInstr op m f s).run =
      (f (m.operand s)
        (s.spentSampled (readCalls m s) (m.pcNext s.pc) s.sampled c)).endOfInstruction := by
  obtain ⟨c, hc⟩ := run_resolve h op m .read fun ea s => last (m.dataAccess ea) s fun v s => finish (f v s)
  refine ⟨{ c with cycle := c.cycle + 1 }, hc.trans ?_⟩
  cases m <;> simp only [Mode.dataAccess, run_last_spent_read h, run_last_spent_fetch h, finish, run_done,
    Mode.operand, readCalls, Mode.pcAfter, Mode.pcNext, Mode.resolverCalls, Mode.ea, List.cons_append, List.nil_append]
  all_goals try rw [word_one_one]

/-- What is left to show once an instruction's cycles have been run: the state `u` they leave before the
end-of-instruction point is `eff` but for the record. -/
theorem completes_of {s u eff : State} {i : Instr} {bytes : List Byte} {calls : List HostCall} {n : Nat} {a : Action}
    (hi : exec i s = complete a) (hr : a.run = u.endOfInstruction) (hb : encode i = bytes) (h : s.script = [])
    (hu : u = eff.withRecord u) (hh : eff.hooks = s.hooks) (hs : eff.script = s.script)
    (ht : u.trace = calls.reverse ++ s.trace) (hn : u.cycleCount = s.cycleCount + n)
    (hk : u.instrCount = s.instrCount) : Completes s i bytes calls n eff := by
  have hq : u.script = [] := by rw [hu]; exact hs.trans h
  have hx : u.hooks = s.hooks := by rw [hu]; exact hh
  refine ⟨hb, _, hi.trans (congrArg Host.Outcome.next hr), ?_⟩
  rw [endOfInstruction_quiet hq, hx, State.eoiCalls]
  have e : u.retire = eff.withRecord u.retire := by
    rw [State.retire, State.discard, State.setCtx]; rw [hu]; rfl
  cases s.hooks.eoi
  · refine ⟨e, ?_, hn, congrArg (· + 1) hk, rfl⟩
    simpa using ht
  · refine ⟨?_, ?_, hn, congrArg (· + 1) hk, rfl⟩
    · exact congrArg (State.call · .eoiHook) e
    · simp [State.call, State.retire, State.discard, State.setCtx, ht]

/-- The accesses of a resolver, counted (R142). -/
def Mode.resolverCycles (m : Mode) (kind : Kind) (s : State) : Nat :=
  match m with
  | .imm _ => 0
  | .zp _ => 1
  | .zpx _ | .zpy _ | .abs _ _ => 2
  | .absx _ _ | .absy _ _ => 2 + (kind.deadRead (pagePenalty (m.base s) (m.index s))).toNat
  | .zpi _ => 3
  | .zpxi _ => 4
  | .zpiy _ => 3 + (kind.deadRead (pagePenalty (m.base s) (m.index s))).toNat

theorem resolverCalls_length (m : Mode) (kind : Kind) (s : State) :
    (m.resolverCalls kind s).length = m.resolverCycles kind s := by
  have hd : ∀ m : Mode, (m.deadReads kind s).length = (kind.deadRead (pagePenalty (m.base s) (m.index s))).toNat := by
    intro m
    unfold Mode.deadReads
    cases kind.deadRead (pagePenalty (m.base s) (m.index s)) <;> rfl
  cases m <;> simp [Mode.resolverCalls, Mode.resolverCycles, hd] <;> omega

theorem readCalls_length (m : Mode) (s : State) : (readCalls m s).length = m.resolverCycles .read s + 2 := by
  simp [readCalls, resolverCalls_length]

theorem storeCalls_length (m : Mode) (v : Byte) (s : State) :
    (storeCalls m v s).length = m.resolverCycles .store s + 2 := by
  simp [storeCalls, resolverCalls_length]

theorem rmwCalls_length (m : Mode) (kind : Kind) (v : Byte) (s : State) :
    (rmwCalls m kind v s).length = m.resolverCycles kind s + 4 := by
  simp [rmwCalls, resolverCalls_length]

theorem decimalCalls_length (m : Mode) (s : State) :
    (decimalCalls m s).length = m.resolverCycles .read s + 2 + s.p.d.toNat := by
  unfold decimalCalls
  cases s.p.d <;> simp [readCalls_length]

theorem run_last_spent_write {s : State} {l w c} (h : s.script = []) (a : Word) (v : Byte) (k : Byte → State → Action) :
    (last (.write a v) (s.spent l w c) k).run =
      (k 0 ((s.setMem (s.mem.write a.toNat v)).spentSampled (l ++ [HostCall.write a v]) w s.sampled
        { c with cycle := c.cycle + 1 })).run := by
  rw [run_last_write (s := s.spent l w c) h]
  simp [State.sample, State.spentSampled, State.spent, State.tally, State.call, State.setCommitted, State.setMem,
    Nat.add_assoc]
  rfl

theorem run_spent_write {s : State} {l w c} (h : s.script = []) (a : Word) (v : Byte) (k : Byte → State → Action) :
    (Action.cycle (.write a v) (s.spent l w c) k).run =
      (k 0 ((s.setMem (s.mem.write a.toNat v)).spent (l ++ [HostCall.write a v]) w
        { c with cycle := c.cycle + 1 })).run := by
  rw [run_write (s := s.spent l w c) h]
  simp [State.spent, State.tally, State.call, State.setMem, Nat.add_assoc]

theorem run_decimalInstr {s : State} (h : s.script = []) (op : Byte) (m : Mode) (f : Byte → State → State) :
    ∃ c, (decimalInstr op m f s).run =
      (f (m.operand s)
        (s.spentSampled (decimalCalls m s) (m.pcNext s.pc) s.sampled c)).endOfInstruction := by
  obtain ⟨c, hc⟩ := run_resolve h op m .read fun ea s =>
    if s.p.d then
      .cycle (m.dataAccess ea) s fun v s => last (.read ea) (s.latchData v) fun _ s => finish (f v s)
    else last (m.dataAccess ea) s fun v s => finish (f v s)
  rw [decimalInstr, hc]
  by_cases hd : s.p.d = true
  case neg =>
    rw [if_neg (show ¬(s.spent _ _ _).p.d = true from hd)]
    simp only [Bool.not_eq_true] at hd
    refine ⟨{ c with cycle := c.cycle + 1 }, ?_⟩
    cases m <;> simp only [Mode.dataAccess, run_last_spent_read h, run_last_spent_fetch h, finish, run_done,
      Mode.operand, readCalls, decimalCalls, hd, Mode.pcAfter, Mode.pcNext, Mode.resolverCalls, Mode.ea, word_one_one,
      List.cons_append, List.nil_append, List.append_nil, Bool.false_eq_true, if_false]
  case pos =>
    rw [if_pos (show (s.spent _ _ _).p.d = true from hd)]
    refine ⟨{ c with cycle := c.cycle + 2, data := m.operand s }, ?_⟩
    cases m <;> simp only [Mode.dataAccess, run_last_spent_read h, run_spent_read h, run_spent_fetch h, finish, run_done,
      Mode.operand, readCalls, decimalCalls, hd, Mode.pcAfter, Mode.pcNext, Mode.resolverCalls, Mode.ea, word_one_one,
      State.latchData_spent, List.cons_append, List.nil_append, List.append_assoc, if_true]

theorem run_storeInstr {s : State} (h : s.script = []) (op : Byte) (m : Mode) (v : State → Byte)
    (hm : ∀ d, m ≠ .imm d) (hv : ∀ l w c, v (s.spent l w c) = v s) :
    ∃ c, (storeInstr op m v s).run =
      ((s.setMem (s.mem.write (m.ea s).toNat (v s))).spentSampled (storeCalls m (v s) s) (m.pcNext s.pc) s.sampled
        c).endOfInstruction := by
  obtain ⟨c, hc⟩ := run_resolve h op m .store fun ea s => last (.write ea (v s)) s fun _ s => finish s
  have hp : m.pcAfter s.pc = m.pcNext s.pc := by
    cases m <;> first | rfl | exact absurd rfl (hm _)
  refine ⟨{ c with cycle := c.cycle + 1 }, hc.trans ?_⟩
  rw [run_last_spent_write h, hv, hp]
  rfl

theorem run_rmwInstr {s : State} (h : s.script = []) (hw : s.mem.wf = true) (op : Byte) (m : Mode) (kind : Kind)
    (f : Modify) (hm : ∀ d, m ≠ .imm d) (g : Byte → Flags → Byte) (q : Byte → Flags → Flags)
    (hf : ∀ s', f (s.byteAt (m.ea s)) s' = (g s'.a s'.p, s'.setP (q s'.a s'.p))) :
    ∃ c, (rmwInstr op m kind f s).run =
      (({ s with mem := s.mem.write (m.ea s).toNat (g s.a s.p), p := q s.a s.p, draws := s.rmwDraws } : State).spentSampled
        (rmwCalls m kind (g s.a s.p) s) (m.pcNext s.pc) s.sampled c).endOfInstruction := by
  obtain ⟨c, hc⟩ := run_resolve h op m kind fun ea s =>
    .cycle (.read ea) s fun old s =>
    dummyWrite ea old (s.latchData old) fun s =>
    last (.write ea (f old s).1) s fun _ s =>
    finish (f old s).2
  have hp : m.pcAfter s.pc = m.pcNext s.pc := by
    cases m <;> first | rfl | exact absurd rfl (hm _)
  refine ⟨{ c with cycle := c.cycle + 3, data := s.byteAt (m.ea s) }, hc.trans ?_⟩
  rw [run_spent_read h, State.latchData_spent]
  unfold dummyWrite rmwCalls dummyCall State.rmwDraws
  simp only [State.spent_params, State.spent_draws]
  cases hd : s.params.rmwDummy
  · simp only []
    rw [run_spent_write h, run_last_spent_write (by exact h)]
    simp only [hf, finish, run_done, hp]
    simp [State.setMem, State.spentSampled, State.spent, State.setCommitted, State.setP, State.sampled, State.irqMask,
      Memory.write_write _ _ _ hw]
  · simp only []
    rw [show (s.spent (HostCall.read s.pc :: m.resolverCalls kind s ++ [HostCall.read (m.ea s)]) (m.pcAfter s.pc)
          { c with cycle := c.cycle + 1, data := s.byteAt (m.ea s) }).drawn = State.spent s.drawn _ _ _ from rfl,
      run_spent_write (by exact h), run_last_spent_write (by exact h)]
    simp only [hf, finish, run_done, hp]
    simp [State.setMem, State.spentSampled, State.spent, State.setCommitted, State.setP, State.sampled, State.irqMask,
      State.drawn, Memory.write_write _ _ _ hw]
  · simp only []
    rw [run_spent_idle h, run_last_spent_write h]
    simp only [hf, finish, run_done, hp]
    simp [State.setMem, State.spentSampled, State.spent, State.setCommitted, State.setP, State.sampled, State.irqMask]

theorem run_impliedInstr {s : State} (h : s.script = []) (op : Byte) (f : State → State) :
    ∃ c, (impliedInstr op f s).run =
      (f (s.spentSampled [.read s.pc, .read (s.pc + 1)] (s.pc + 1) s.sampled c)).endOfInstruction := by
  rw [impliedInstr, run_start_spent h, run_last_spent_read h]
  exact ⟨_, rfl⟩

/-- A push of the penultimate cycle's sample: the stack byte and `S` change, nothing else but the record. -/
theorem run_push_sampled {s : State} {l w c} (h : s.script = []) (v : Byte) :
    (push v (s.spent l w c).sample finish).run =
      (((s.setMem (s.mem.write s.stackAddr.toNat v)).setSp (s.sp - 1)).spentSampled (l ++ [.write s.stackAddr v]) w
        s.sampled { c with cycle := c.cycle + 1 }).endOfInstruction := by
  rw [sample_spent, run_push (s := s.spentSampled l w s.sampled c) h, finish, run_done]
  simp [State.spentSampled, State.spent, State.tally, State.call, State.setCommitted, State.setMem, State.setSp,
    State.stackAddr, Nat.add_assoc]

theorem run_pushInstr {s : State} (h : s.script = []) (op : Byte) (v : State → Byte)
    (hv : ∀ l w c, v (s.spent l w c) = v s) :
    ∃ c, (pushInstr op v s).run =
      (((s.setMem (s.mem.write s.stackAddr.toNat (v s))).setSp (s.sp - 1)).spentSampled
        [.read s.pc, .read (s.pc + 1), .write s.stackAddr (v s)] (s.pc + 1) s.sampled c).endOfInstruction := by
  rw [pushInstr, run_start_spent h, run_spent_idle h, hv, run_push_sampled h]
  exact ⟨_, rfl⟩

theorem run_pullInstr {s : State} (h : s.script = []) (op : Byte) (f : Byte → State → State) :
    ∃ c, (pullInstr op f s).run =
      (f (s.byteAt (s.stackAbove 1)) ((s.setSp (s.sp + 1)).spentSampled
        [.read s.pc, .read (s.pc + 1), .read s.stackAddr, .read (s.stackAbove 1)] (s.pc + 1) s.sampled
          c)).endOfInstruction := by
  rw [pullInstr, run_start_spent h, run_spent_idle h, run_spent_idle h, sample_spent,
    run_pull (s := s.spentSampled _ _ _ _) h, finish, run_done]
  exact ⟨_, rfl⟩

theorem run_spent_fetchAbs {s : State} {l w c} (h : s.script = []) (al ah : Byte) (k : Word → State → Action) :
    (fetchAbs al ah (s.spent l w c) k).run =
      (k (word ah al) (s.spent (l ++ [.read w, .read (w + 1)]) (w + 2) { c with cycle := c.cycle + 2 })).run := by
  unfold fetchAbs
  rw [run_spent_fetch h, run_spent_fetch h, List.append_assoc, word_one_one]
  rfl

/-- The end of an indirect jump (R134, R135): two pointer reads, and `PC` from them. -/
theorem run_spent_jumpThrough {s : State} {l w c} (h : s.script = []) (ptr : Word) :
    ∃ c', (jumpThrough ptr (s.spent l w c)).run =
      (s.spentSampled (l ++ [.read ptr, .read (ptr + 1)]) (s.pointerAt ptr) s.sampled c').endOfInstruction := by
  unfold jumpThrough
  rw [run_spent_read h, run_last_spent_read h, List.append_assoc]
  exact ⟨_, rfl⟩

theorem run_takeBranch {s : State} {l w c} (h : s.script = []) (d : Byte) :
    ∃ c', (takeBranch d (s.spent l w c)).run =
      (s.spentSampled (l ++ takenCalls w d) (offsetTarget w d) s.sampled c').endOfInstruction := by
  have ht : branchTarget w d = offsetTarget w d := by
    rw [offsetTarget, BitVec.ofInt_add, BitVec.ofInt_natCast, BitVec.ofNat_toNat, BitVec.setWidth_eq]
    rfl
  unfold takeBranch takenCalls
  simp only [State.spent_pc, ht]
  split
  · rw [run_last_spent_read h]; exact ⟨_, rfl⟩
  · rw [run_spent_idle h, run_last_spent_read h]; exact ⟨_, by rw [List.append_assoc]; rfl⟩

theorem run_branchInstr {s : State} (h : s.script = []) (op d : Byte) (taken : State → Bool)
    (hv : ∀ l w c, taken (s.spent l w c) = taken s) :
    ∃ c, (branchInstr op d taken s).run =
      (s.spentSampled ([.read s.pc, .read (s.pc + 1)] ++ if taken s then takenCalls (s.pc + 2) d else [])
        (if taken s then offsetTarget (s.pc + 2) d else s.pc + 2) s.sampled c).endOfInstruction := by
  rw [branchInstr, run_start_spent h, run_spent_fetch h, hv, word_one_one]
  cases taken s
  · exact ⟨_, rfl⟩
  · obtain ⟨c, hc⟩ := run_takeBranch (s := s) (l := [.read s.pc, .read (s.pc + 1)]) (w := s.pc + 2) h d
    exact ⟨c, hc⟩

theorem run_bitBranchInstr {s : State} (h : s.script = []) (op : Byte) (n : Fin 8) (want : Bool) (zp rel : Byte) :
    let taken := decide ((s.byteAt (zext zp)).getLsbD n = want)
    ∃ c, (bitBranchInstr op n want zp rel s).run =
      (s.spentSampled ([.read s.pc, .read (s.pc + 1), .read (zext zp), .read (zext zp), .read (s.pc + 2)] ++
          if taken then takenCalls (s.pc + 3) rel else [])
        (if taken then offsetTarget (s.pc + 3) rel else s.pc + 3) s.sampled c).endOfInstruction := by
  simp only [decide_eq_true_eq]
  rw [bitBranchInstr, run_start_spent h, run_spent_fetch h, run_spent_read h, State.latchData_spent, run_spent_idle h,
    word_one_one]
  split
  · rw [run_spent_fetch h, word_two_one]
    exact run_takeBranch (l := [_, _, _, _, _]) h rel
  · rw [run_last_spent_fetch h, word_two_one]; exact ⟨_, rfl⟩

end Sys2Proof.Machine
end

