-- ==== Sys2Proof/Laws/Completes.lean ====
section
/-! SUPPORT. One lemma per access template: that an instruction of that template completes with its effect, from
the facts that are particular to it. -/

namespace Sys2Proof.Machine

/-- `e` with the program counter and the record of an instruction about to end. -/
def State.recorded (e : State) (pc : Word) (tr : List HostCall) (cc : Nat) (co : Commit) (c : Ctx) : State :=
  { e with pc := pc, trace := tr, cycleCount := cc, committed := co, ctx := c }

/-- What an effect must satisfy to be stated: it keeps the host side and the instruction count. -/
def SameHost (s e : State) : Prop := e.hooks = s.hooks ∧ e.script = s.script ∧ e.instrCount = s.instrCount

theorem spentSampled_eq_recorded (s : State) (l : List HostCall) (w : Word) (co : Commit) (c : Ctx) :
    s.spentSampled l w co c = s.recorded w (l.reverse ++ s.trace) (s.cycleCount + l.length) co c := rfl

theorem completes_recorded {s e : State} {i : Instr} {bytes : List Byte} {calls : List HostCall} {n : Nat} {a : Action}
    {pc : Word} {co : Commit} {c : Ctx} (hi : exec i s = complete a) (hb : encode i = bytes) (h : s.script = [])
    (hr : a.run = (e.recorded pc (calls.reverse ++ s.trace) (s.cycleCount + n) co c).endOfInstruction)
    (he : SameHost s e) : Completes s i bytes calls n { e with pc := pc } := by
  obtain ⟨hh, hs, hk⟩ := he
  exact completes_of hi hr hb h rfl hh hs rfl rfl hk

theorem takenCalls_length (pc : Word) (d : Byte) :
    (takenCalls pc d).length = 1 + (hi8 (offsetTarget pc d) != hi8 pc).toNat := by
  unfold takenCalls
  by_cases hp : hi8 (offsetTarget pc d) = hi8 pc
  · simp [hp]
  · have hne : (hi8 (offsetTarget pc d) != hi8 pc) = true := bne_iff_ne.mpr hp
    simp [hp, hne]

section

variable {s : State} (h : Quiet s) {i : Instr} {bytes : List Byte} {m : Mode} {n : Nat} {op : Byte}
include h

theorem read_completes {f : Byte → State → State} (eff : Byte → State) (hi : exec i s = complete (readInstr op m f s))
    (hb : encode i = bytes) (hl : s.pc + BitVec.ofNat 16 bytes.length = m.pcNext s.pc)
    (hn : m.resolverCycles .read s + 2 = n)
    (hf : ∀ l w co c, f (m.operand s) (s.spentSampled l w co c) =
      (eff (m.operand s)).recorded w (l.reverse ++ s.trace) (s.cycleCount + l.length) co c)
    (hp : (eff (m.operand s)).pc = s.pc) (he : SameHost s (eff (m.operand s))) : ReadCompletes s i bytes m n eff := by
  obtain ⟨c, hc⟩ := run_readInstr h op m f
  rw [hf, readCalls_length, hn] at hc
  unfold ReadCompletes State.after
  rw [hp, hl]
  exact completes_recorded hi hb h hc he

theorem decimal_completes {f : Byte → State → State} (eff : Byte → State)
    (hi : exec i s = complete (decimalInstr op m f s)) (hb : encode i = bytes)
    (hl : s.pc + BitVec.ofNat 16 bytes.length = m.pcNext s.pc) (hn : m.resolverCycles .read s + 2 = n)
    (hf : ∀ l w co c, f (m.operand s) (s.spentSampled l w co c) =
      (eff (m.operand s)).recorded w (l.reverse ++ s.trace) (s.cycleCount + l.length) co c)
    (hp : (eff (m.operand s)).pc = s.pc) (he : SameHost s (eff (m.operand s))) : DecimalCompletes s i bytes m n eff := by
  obtain ⟨c, hc⟩ := run_decimalInstr h op m f
  rw [hf, decimalCalls_length, hn] at hc
  unfold DecimalCompletes State.after
  rw [hp, hl]
  exact completes_recorded hi hb h hc he

omit h in
/-- From the memory an instruction leaves to what it says of single bytes. -/
theorem storesOnly_of {ea : Word} {v : Byte} (hw : s.mem.wf = true)
    {a : Action} (hi : exec i s = complete a) {u : State} (hr : a.run = u.endOfInstruction) (hq : u.script = [])
    (hm : u.mem = s.mem.write ea.toNat v) : StoresOnly s i ea v := by
  intro t ht
  obtain rfl := Host.Outcome.next.inj ((hi.trans (congrArg Host.Outcome.next hr)).symm.trans ht)
  have hmem : u.endOfInstruction.mem = s.mem.write ea.toNat v := by
    rw [endOfInstruction_quiet hq, ← hm]; split <;> rfl
  unfold State.byteAt
  rw [hmem]
  exact ⟨Memory.read_write_same _ _ hw, fun a ha =>
    Memory.read_write_other _ _ fun h => ha (BitVec.eq_of_toNat_eq h)⟩

theorem store_completes (hw : s.mem.wf = true) {v : State → Byte} (x : Byte)
    (hi : exec i s = complete (storeInstr op m v s)) (hb : encode i = bytes)
    (hl : s.pc + BitVec.ofNat 16 bytes.length = m.pcNext s.pc) (hn : m.resolverCycles .store s + 2 = n)
    (hm : ∀ d, m ≠ .imm d) (hv : ∀ l w c, v (s.spent l w c) = v s) (hx : v s = x) : StoreCompletes s i bytes m n x := by
  subst hx
  obtain ⟨c, hc⟩ := run_storeInstr h op m v hm hv
  refine ⟨?_, storesOnly_of hw hi hc h rfl⟩
  rw [spentSampled_eq_recorded, storeCalls_length, hn] at hc
  unfold State.after
  rw [show ({ s with mem := s.mem.write (m.ea s).toNat (v s) } : State).pc = s.pc from rfl, hl]
  exact completes_recorded hi hb h hc ⟨rfl, rfl, rfl⟩

theorem rmw_completes (hw : s.mem.wf = true) {f : Modify} {kind : Kind} (g : Byte → Flags → Byte)
    (q : Byte → Flags → Flags) {v : Byte} {p : Flags}
    (hi : exec i s = complete (rmwInstr op m kind f s)) (hb : encode i = bytes)
    (hl : s.pc + BitVec.ofNat 16 bytes.length = m.pcNext s.pc) (hn : m.resolverCycles kind s + 4 = n)
    (hm : ∀ d, m ≠ .imm d)
    (hf : ∀ s', f (s.byteAt (m.ea s)) s' = (g s'.a s'.p, s'.setP (q s'.a s'.p)))
    (hv : g s.a s.p = v) (hp : q s.a s.p = p) : RmwCompletes s i bytes m kind n v p := by
  subst hv hp
  obtain ⟨c, hc⟩ := run_rmwInstr h hw op m kind f hm g q hf
  refine ⟨?_, storesOnly_of hw hi hc h rfl⟩
  rw [spentSampled_eq_recorded, rmwCalls_length, hn] at hc
  unfold State.after
  rw [show ({ s with mem := s.mem.write (m.ea s).toNat (g s.a s.p), p := q s.a s.p, draws := s.rmwDraws } : State).pc
    = s.pc from rfl, hl]
  exact completes_recorded hi hb h hc ⟨rfl, rfl, rfl⟩

theorem implied_completes {f : State → State} (eff : State) (hi : exec i s = complete (impliedInstr op f s))
    (hb : encode i = [op])
    (hf : ∀ l w co c, f (s.spentSampled l w co c) =
      eff.recorded w (l.reverse ++ s.trace) (s.cycleCount + l.length) co c)
    (hp : eff.pc = s.pc) (he : SameHost s eff) : ImpliedCompletes s i op eff := by
  obtain ⟨c, hc⟩ := run_impliedInstr h op f
  rw [hf] at hc
  unfold ImpliedCompletes State.after
  rw [hp]
  exact completes_recorded hi hb h hc he

theorem push_completes (hw : s.mem.wf = true) {v : State → Byte} (x : Byte)
    (hi : exec i s = complete (pushInstr op v s)) (hb : encode i = [op]) (hv : ∀ l w c, v (s.spent l w c) = v s)
    (hx : v s = x) : PushCompletes s i op x := by
  subst hx
  obtain ⟨c, hc⟩ := run_pushInstr h op v hv
  exact ⟨completes_recorded (e := { s with mem := s.mem.write s.stackAddr.toNat (v s), sp := s.sp - 1 }) hi hb h hc
    ⟨rfl, rfl, rfl⟩, storesOnly_of hw hi hc h rfl⟩

theorem pull_completes {f : Byte → State → State} (eff : Byte → State) (hi : exec i s = complete (pullInstr op f s))
    (hb : encode i = [op])
    (hf : ∀ v l w co c, f v ((s.setSp (s.sp + 1)).spentSampled l w co c) =
      ({ eff v with sp := s.sp + 1 } : State).recorded w (l.reverse ++ s.trace) (s.cycleCount + l.length) co c)
    (hp : ∀ v, (eff v).pc = s.pc) (he : ∀ v, SameHost s (eff v)) : PullCompletes s i op eff := by
  obtain ⟨c, hc⟩ := run_pullInstr h op f
  rw [hf] at hc
  unfold PullCompletes State.after
  rw [show ∀ v, ({ eff v with sp := s.sp + 1 } : State).pc = (eff v).pc from fun _ => rfl, hp]
  exact completes_recorded hi hb h hc (he _)

theorem branch_completes {taken : State → Bool} {d : Byte} {b : Bool} (hi : exec i s = complete (branchInstr op d taken s))
    (hb : encode i = [op, d]) (hv : ∀ l w c, taken (s.spent l w c) = taken s) (ht : taken s = b) :
    BranchCompletes s i op d b := by
  subst ht
  obtain ⟨c, hc⟩ := run_branchInstr h op d taken hv
  rw [spentSampled_eq_recorded] at hc
  have he : ([.read s.pc, .read (s.pc + 1)] ++ if taken s then takenCalls (s.pc + 2) d else [] : List HostCall).length =
      2 + (taken s).toNat + (taken s && hi8 (offsetTarget (s.pc + 2) d) != hi8 (s.pc + 2)).toNat := by
    cases taken s <;> simp [takenCalls_length]
    omega
  rw [he] at hc
  exact completes_recorded hi hb h hc ⟨rfl, rfl, rfl⟩

theorem bitBranch_completes {k : Fin 8} {want b : Bool} {zp rel : Byte}
    (hi : exec i s = complete (bitBranchInstr op k want zp rel s)) (hb : encode i = [op, zp, rel])
    (ht : decide ((s.byteAt (zext zp)).getLsbD k = want) = b) : BitBranchCompletes s i op zp rel b := by
  subst ht
  obtain ⟨c, hc⟩ := run_bitBranchInstr h op k want zp rel
  generalize decide ((s.byteAt (zext zp)).getLsbD k = want) = b at *
  rw [spentSampled_eq_recorded] at hc
  have he : ([.read s.pc, .read (s.pc + 1), .read (zext zp), .read (zext zp), .read (s.pc + 2)] ++
      if b then takenCalls (s.pc + 3) rel else [] : List HostCall).length =
      5 + b.toNat + (b && hi8 (offsetTarget (s.pc + 3) rel) != hi8 (s.pc + 3)).toNat := by
    cases b <;> simp [takenCalls_length]
    omega
  rw [he] at hc
  exact completes_recorded hi hb h hc ⟨rfl, rfl, rfl⟩

end

end Sys2Proof.Machine
end

