-- ==== Sys2Proof/Laws/Every.lean ====
section
/-! SUPPORT. What holds of every action under every host script: what each access keeps (`Went`), what the end of an
instruction leaves (`Ended`), and that every template goes from the one to the other (`Good`). -/

namespace Sys2Proof.Machine

/-- `s` is `s₀` after `n` accesses: everything but the data registers, the flags, the context, the commit, the latch,
the stall budget, the break request, the draws and the bytes of memory is as the accesses alone leave it. -/
structure Went (s₀ : State) (n : Nat) (s : State) : Prop where
  execState : s.execState = s₀.execState
  hooks : s.hooks = s₀.hooks
  params : s.params = s₀.params
  script : s.script = s₀.script
  resetSeen : s.resetSeen = s₀.resetSeen
  instrCount : s.instrCount = s₀.instrCount
  cycleCount : s.cycleCount = s₀.cycleCount + n
  trace : ∃ calls, s.trace = calls ++ s₀.trace ∧ (calls.filter HostCall.isAccess).length = n
  memWf : s₀.mem.wf = true → s.mem.wf = true
  pendReset : s₀.pendReset = true → s.pendReset = true

/-- `t` is `s₀` after an instruction or entry of `n` cycles. `execState` is the caller's to say. -/
structure Ended (s₀ : State) (n : Nat) (t : State) : Prop where
  hooks : t.hooks = s₀.hooks
  params : t.params = s₀.params
  script : t.script = s₀.script
  resetSeen : t.resetSeen = s₀.resetSeen
  instrCount : t.instrCount = s₀.instrCount + 1
  cycleCount : t.cycleCount = s₀.cycleCount + n
  trace : ∃ calls, t.trace = calls ++ s₀.trace ∧ (calls.filter HostCall.isAccess).length = n
  memWf : s₀.mem.wf = true → t.mem.wf = true
  pendReset : s₀.pendReset = true → t.pendReset = true
  ctx : t.ctx = Ctx.idle

/-- `t` differs from `s` in registers, flags, context, commit, stall budget, break request and draws at most. -/
abbrev Touch (s t : State) : Prop :=
  t = { s with
    a := t.a, x := t.x, y := t.y, sp := t.sp, pc := t.pc, p := t.p, ctx := t.ctx, committed := t.committed
    stall := t.stall, breakReq := t.breakReq, draws := t.draws }

/-- Whatever bytes are answered, the action ends in a state that meets `F`, given the number of cycles it took. -/
def Action.Ends (F : Nat → State → Prop) : Nat → Action → Prop
  | n, .done s => F n s
  | n, .cycle op s k => ∀ v, Action.Ends F (n + 1) (k v (perform op s).2)

/-- The number of cycles of an action, the host answering as it does. -/
def Action.cycles : Action → Nat
  | .done _ => 0
  | .cycle op s k => (k (perform op s).1 (perform op s).2).cycles + 1

theorem Action.Ends.run {F : Nat → State → Prop} {n : Nat} {a : Action} (h : a.Ends F n) : F (n + a.cycles) a.run := by
  induction a generalizing n with
  | done s => exact h
  | cycle op s k ih =>
    have := ih (perform op s).1 (perform op s).2 (h (perform op s).1)
    rw [show n + (Action.cycle op s k).cycles = n + 1 + (k (perform op s).1 (perform op s).2).cycles by
      simp only [Action.cycles]; omega]
    exact this

theorem Action.Ends.mono {F G : Nat → State → Prop} {n : Nat} {a : Action} (h : a.Ends F n)
    (fg : ∀ n s, F n s → G n s) : a.Ends G n := by
  induction a generalizing n with
  | done s => exact fg _ _ h
  | cycle op s k ih => exact fun v => ih v _ (h v)

/-- Performing the cycles of an action one by one is performing the action. -/
theorem tickN_cycles (a : Action) : tickN a.cycles a = .next (.done a.run) := by
  induction a with
  | done s => rfl
  | cycle op s k ih => exact ih _ _

/-- From `n` cycles on, an action of one to eight cycles that reaches the end point, `X` saying what else is known of
the final state. -/
def Good (s₀ : State) (X : State → Prop) (n : Nat) (a : Action) : Prop :=
  a.Ends (fun n t => Ended s₀ n t ∧ (1 ≤ n ∧ n ≤ 8) ∧ X t) n

namespace Went

theorem refl (s : State) : Went s 0 s :=
  ⟨rfl, rfl, rfl, rfl, rfl, rfl, rfl, ⟨[], rfl, rfl⟩, id, id⟩

variable {s₀ s t : State} {n : Nat}

/-- A change of registers, flags, context, commit, stall budget, break request or draws. -/
theorem touch (h : Went s₀ n s) (e : Touch s t) : Went s₀ n t := by
  rw [e]
  exact ⟨h.execState, h.hooks, h.params, h.script, h.resetSeen, h.instrCount, h.cycleCount, h.trace, h.memWf,
    h.pendReset⟩

theorem apply_pendReset (x : HostAct) (h : s.pendReset = true) : (x.apply s).pendReset = true := by
  cases x <;> first | exact h | rfl

theorem runActs_pendReset (l : List HostAct) (h : s.pendReset = true) : (s.runActs l).pendReset = true := by
  induction l generalizing s with
  | nil => exact h
  | cons x l ih => exact ih (apply_pendReset x h)

theorem access (h : Went s₀ n s) {c : HostCall} (hc : c.isAccess = true) : Went s₀ (n + 1) (s.access c) where
  execState := by simp [h.execState]
  hooks := by simp [h.hooks]
  params := by simp [h.params]
  script := by simp [h.script]
  resetSeen := by simp [h.resetSeen]
  instrCount := by simp [h.instrCount]
  cycleCount := by simp [h.cycleCount]; omega
  trace := by
    obtain ⟨calls, e, l⟩ := h.trace
    exact ⟨c :: calls, by simp [e], by simp [List.filter, hc, l]⟩
  memWf := fun w => State.access_memWf c (h.memWf w)
  pendReset := fun w => runActs_pendReset _ (h.pendReset w)

theorem write (h : Went s₀ n s) (a : Word) (v : Byte) : Went s₀ n (s.setMem (s.mem.write a.toNat v)) :=
  ⟨h.execState, h.hooks, h.params, h.script, h.resetSeen, h.instrCount, h.cycleCount, h.trace,
    fun w => Memory.wf_write_word a v (h.memWf w), h.pendReset⟩

theorem perform (h : Went s₀ n s) (op : BusOp) : Went s₀ (n + 1) (perform op s).2 := by
  cases op with
  | read a => exact h.access rfl
  | fetch d => exact (h.access (c := .read s.pc) rfl).touch rfl
  | pull => exact (h.touch (t := s.setSp (s.sp + 1)) rfl).access rfl
  | write a v => exact (h.write a v).access rfl
  | writeStatus a b => exact (h.write a _).access rfl

/-- A hook's call is recorded; it is no access. -/
theorem hook (h : Went s₀ n s) {c : HostCall} (hc : c.isAccess = false) : Went s₀ n (s.call c) := by
  obtain ⟨calls, e, l⟩ := h.trace
  exact ⟨h.execState, h.hooks, h.params, h.script, h.resetSeen, h.instrCount, h.cycleCount,
    ⟨c :: calls, by simp [State.call, e], by simp [List.filter, hc, l]⟩, h.memWf, h.pendReset⟩

theorem endOfInstruction (h : Went s₀ n s) : Ended s₀ n s.endOfInstruction := by
  have r : Went { s₀ with instrCount := s₀.instrCount + 1 } n s.retire :=
    ⟨h.execState, h.hooks, h.params, h.script, h.resetSeen, by simp [State.retire, h.instrCount], h.cycleCount, h.trace,
      h.memWf, h.pendReset⟩
  unfold State.endOfInstruction State.eoiHook
  split
  · have k := r.hook (c := .eoiHook) rfl
    exact ⟨(State.runActs_hooks _ _).trans k.hooks, (State.runActs_params _ _).trans k.params,
      (State.runActs_script _ _).trans k.script, (State.runActs_resetSeen _ _).trans k.resetSeen,
      (State.runActs_instrCount _ _).trans k.instrCount, (State.runActs_cycleCount _ _).trans k.cycleCount,
      by rw [State.runActs_trace]; exact k.trace, fun w => State.runActs_memWf _ (k.memWf w),
      fun w => runActs_pendReset _ (k.pendReset w), State.runActs_ctx _ _⟩
  · exact ⟨r.hooks, r.params, r.script, r.resetSeen, r.instrCount, r.cycleCount, r.trace, r.memWf, r.pendReset, rfl⟩

end Went

/-- The end point changes neither the execution state nor the commit. -/
theorem endOfInstruction_execState (s : State) : s.endOfInstruction.execState = s.execState := by
  unfold State.endOfInstruction State.eoiHook
  split <;> simp [State.call, State.retire, State.discard]

theorem endOfInstruction_committed (s : State) : s.endOfInstruction.committed = s.committed := by
  unfold State.endOfInstruction State.eoiHook
  split <;> simp [State.call, State.retire, State.discard]

/-- What the final state of an action that reaches the end point through `finish` is known by. -/
def SameExec (s₀ : State) (t : State) : Prop := t.execState = s₀.execState

section Templates

variable {s₀ s : State} {X : State → Prop} {n : Nat}

theorem Good.cycle (h : Went s₀ n s) (op : BusOp) {k : Byte → State → Action}
    (g : ∀ v t, Went s₀ (n + 1) t → Good s₀ X (n + 1) (k v t)) : Good s₀ X n (.cycle op s k) :=
  fun v => g v _ (h.perform op)

theorem Good.finish (h : Went s₀ n s) (l : 1 ≤ n ∧ n ≤ 8) : Good s₀ (SameExec s₀) n (finish s) :=
  ⟨h.endOfInstruction, l, (endOfInstruction_execState s).trans h.execState⟩

theorem Good.start (h : Went s₀ n s) (opcode : Byte) {k : State → Action}
    (g : ∀ t, Went s₀ (n + 1) t → Good s₀ X (n + 1) (k t)) : Good s₀ X n (start opcode s k) :=
  Good.cycle (h.touch rfl) _ fun _ _ ht => g _ ht

theorem Good.last (h : Went s₀ n s) (op : BusOp) {k : Byte → State → Action}
    (g : ∀ v t, Went s₀ (n + 1) t → Good s₀ X (n + 1) (k v t)) : Good s₀ X n (last op s k) :=
  Good.cycle (h.touch rfl) op g

theorem Good.idle (h : Went s₀ n s) (a : Word) {k : State → Action}
    (g : ∀ t, Went s₀ (n + 1) t → Good s₀ X (n + 1) (k t)) : Good s₀ X n (idle a s k) :=
  Good.cycle h _ fun _ _ ht => g _ ht

theorem Good.pushOp (h : Went s₀ n s) (op : Word → BusOp) {k : State → Action}
    (g : ∀ t, Went s₀ (n + 1) t → Good s₀ X (n + 1) (k t)) : Good s₀ X n (pushOp op s k) :=
  Good.cycle h _ fun _ _ ht => g _ (ht.touch rfl)

theorem Good.pull (h : Went s₀ n s) {k : Byte → State → Action}
    (g : ∀ v t, Went s₀ (n + 1) t → Good s₀ X (n + 1) (k v t)) : Good s₀ X n (pull s k) :=
  Good.cycle h _ g

theorem Good.indexBy (h : Went s₀ n s) (kind : Kind) (base : Word) (index : Byte) {k : Word → State → Action}
    (g : ∀ ea t j, j ≤ 1 → Went s₀ (n + j) t → Good s₀ X (n + j) (k ea t)) : Good s₀ X n (indexBy kind base index s k) := by
  unfold Machine.indexBy
  simp only []
  split
  · exact Good.idle (h.touch rfl) _ fun _ ht => g _ _ 1 (Nat.le_refl 1) ht
  · exact g _ _ 0 (Nat.zero_le 1) (h.touch rfl)

theorem Good.zpPointer (h : Went s₀ n s) (p : Byte) {k : Word → State → Action}
    (g : ∀ w t, Went s₀ (n + 2) t → Good s₀ X (n + 2) (k w t)) : Good s₀ X n (zpPointer p s k) :=
  Good.cycle (h.touch rfl) _ fun _ _ h => Good.cycle h _ fun _ _ h => g _ _ h

/-- A resolver makes at most four accesses. -/
theorem Good.resolve (h : Went s₀ n s) (m : Mode) (kind : Kind) {k : Word → State → Action}
    (g : ∀ ea t j, j ≤ 4 → Went s₀ (n + j) t → Good s₀ X (n + j) (k ea t)) : Good s₀ X n (resolve m kind s k) := by
  cases m with
  | imm d => exact g _ _ 0 (by omega) (h.touch rfl)
  | zp d => exact Good.cycle h _ fun d t ht => g _ _ 1 (by omega) (ht.touch rfl)
  | zpx d =>
    exact Good.cycle h _ fun d t ht => Good.idle (ht.touch rfl) _ fun u hu => g _ _ 2 (by omega) (hu.touch rfl)
  | zpy d =>
    exact Good.cycle h _ fun d t ht => Good.idle (ht.touch rfl) _ fun u hu => g _ _ 2 (by omega) (hu.touch rfl)
  | abs al ah =>
    exact Good.cycle h _ fun _ t ht => Good.cycle ht _ fun _ u hu => g _ _ 2 (by omega) (hu.touch rfl)
  | absx al ah =>
    exact Good.cycle h _ fun _ t ht => Good.cycle ht _ fun _ u hu => Good.indexBy hu kind _ _ fun ea v j hj hv => by
      rw [Nat.add_assoc, Nat.add_assoc] at hv ⊢; exact g ea v _ (by omega) hv
  | absy al ah =>
    exact Good.cycle h _ fun _ t ht => Good.cycle ht _ fun _ u hu => Good.indexBy hu kind _ _ fun ea v j hj hv => by
      rw [Nat.add_assoc, Nat.add_assoc] at hv ⊢; exact g ea v _ (by omega) hv
  | zpi d =>
    exact Good.cycle h _ fun d t ht => Good.zpPointer ht d fun ea v hv => g _ _ 3 (by omega) (hv.touch rfl)
  | zpxi d =>
    exact Good.cycle h _ fun d t ht => Good.idle (ht.touch rfl) _ fun u hu => Good.zpPointer hu _ fun ea w hw =>
      g _ _ 4 (by omega) (hw.touch rfl)
  | zpiy d =>
    exact Good.cycle h _ fun d t ht => Good.zpPointer ht d fun base w hw =>
      Good.indexBy hw kind _ _ fun ea v j hj hv => by
        rw [Nat.add_assoc, Nat.add_assoc] at hv ⊢; exact g ea v _ (by omega) hv

theorem Good.read (opcode : Byte) (m : Mode) {f : Byte → State → State} (hf : ∀ v s, Touch s (f v s)) (s : State) :
    Good s (SameExec s) 0 (readInstr opcode m f s) :=
  Good.start (.refl s) _ fun _ h => Good.resolve h m _ fun _ _ _ _ h => Good.last h _ fun v t h =>
    Good.finish (h.touch (hf v t)) (by omega)

theorem Good.decimal (opcode : Byte) (m : Mode) {f : Byte → State → State} (hf : ∀ v s, Touch s (f v s)) (s : State) :
    Good s (SameExec s) 0 (decimalInstr opcode m f s) := by
  refine Good.start (.refl s) _ fun _ h => Good.resolve h m _ fun _ t _ _ h => ?_
  split
  · exact Good.cycle h _ fun v _ h => Good.last (h.touch rfl) _ fun _ t h => Good.finish (h.touch (hf v t)) (by omega)
  · exact Good.last h _ fun v t h => Good.finish (h.touch (hf v t)) (by omega)

theorem Good.store (opcode : Byte) (m : Mode) (v : State → Byte) (s : State) :
    Good s (SameExec s) 0 (storeInstr opcode m v s) :=
  Good.start (.refl s) _ fun _ h => Good.resolve h m _ fun _ _ _ _ h => Good.last h _ fun _ _ h =>
    Good.finish h (by omega)

theorem Good.dummyWrite (h : Went s₀ n s) (ea : Word) (old : Byte) {k : State → Action}
    (g : ∀ t, Went s₀ (n + 1) t → Good s₀ X (n + 1) (k t)) : Good s₀ X n (dummyWrite ea old s k) := by
  unfold Machine.dummyWrite
  split
  · exact Good.cycle h _ fun _ _ ht => g _ ht
  · exact Good.cycle (h.touch rfl) _ fun _ _ ht => g _ ht
  · exact Good.idle h _ g

theorem Good.rmw (opcode : Byte) (m : Mode) (kind : Kind) {f : Modify} (hf : ∀ v s, Touch s (f v s).2) (s : State) :
    Good s (SameExec s) 0 (rmwInstr opcode m kind f s) :=
  Good.start (.refl s) _ fun _ h => Good.resolve h m _ fun _ _ _ _ h => Good.cycle h _ fun v _ h =>
    Good.dummyWrite (h.touch rfl) _ _ fun _ h => Good.last h _ fun _ t h => Good.finish (h.touch (hf v t)) (by omega)

theorem Good.implied (opcode : Byte) {f : State → State} (hf : ∀ s, Touch s (f s)) (s : State) :
    Good s (SameExec s) 0 (impliedInstr opcode f s) :=
  Good.start (.refl s) _ fun _ h => Good.last h _ fun _ t h => Good.finish (h.touch (hf t)) (by omega)

theorem Good.push (opcode : Byte) (v : State → Byte) (s : State) : Good s (SameExec s) 0 (pushInstr opcode v s) :=
  Good.start (.refl s) _ fun _ h => Good.idle h _ fun _ h => Good.pushOp (h.touch rfl) _ fun _ h =>
    Good.finish h (by omega)

theorem Good.pullI (opcode : Byte) {f : Byte → State → State} (hf : ∀ v s, Touch s (f v s)) (s : State) :
    Good s (SameExec s) 0 (pullInstr opcode f s) :=
  Good.start (.refl s) _ fun _ h => Good.idle h _ fun _ h => Good.idle h _ fun _ h => Good.pull (h.touch rfl) fun v t h =>
    Good.finish (h.touch (hf v t)) (by omega)

theorem Good.takeBranch (h : Went s₀ n s) (d : Byte) (l : n ≤ 6) : Good s₀ (SameExec s₀) n (takeBranch d s) := by
  unfold Machine.takeBranch
  simp only []
  split
  · exact Good.last h _ fun _ _ h => Good.finish (h.touch rfl) (by omega)
  · exact Good.idle h _ fun _ h => Good.last h _ fun _ _ h => Good.finish (h.touch rfl) (by omega)

theorem Good.branch (opcode d : Byte) (taken : State → Bool) (s : State) :
    Good s (SameExec s) 0 (branchInstr opcode d taken s) := by
  refine Good.start (.refl s) _ fun _ h => Good.cycle h _ fun d t h => ?_
  split
  · exact Good.takeBranch h d (by omega)
  · exact Good.finish (h.touch rfl) (by omega)

theorem Good.bitBranch (opcode : Byte) (b : Fin 8) (want : Bool) (zp rel : Byte) (s : State) :
    Good s (SameExec s) 0 (bitBranchInstr opcode b want zp rel s) := by
  refine Good.start (.refl s) _ fun _ h => Good.cycle h _ fun zp t h => Good.cycle h _ fun m t h =>
    Good.idle (h.touch rfl) _ fun t h => ?_
  split
  · exact Good.cycle h _ fun d t h => Good.takeBranch h d (by omega)
  · exact Good.last h _ fun _ _ h => Good.finish h (by omega)

theorem Good.one (opcode : Byte) (s : State) : Good s (SameExec s) 0 (Machine.start opcode s Machine.finish) :=
  Good.start (.refl s) _ fun _ h => Good.finish h (by omega)

theorem Good.takeInterrupt (h : Went s₀ n s) (brk : Bool) (vec : Word) (l : n ≤ 3) :
    Good s₀ (SameExec s₀) n (takeInterrupt brk vec s) := by
  unfold Machine.takeInterrupt
  refine Good.pushOp h _ fun _ h => Good.pushOp h _ fun _ h => Good.pushOp h _ fun _ h => Good.cycle h _ fun _ _ h => ?_
  refine Good.cycle ?_ _ fun th _ h => Good.finish (h.touch rfl) (by omega)
  split
  · exact h.touch rfl
  · exact h

theorem Good.enter (e : Entry) (s : State) :
    Good (e.acknowledge s) (SameExec s) 0 (enter e s) := by
  have x : Good (e.acknowledge s) (SameExec (e.acknowledge s)) 0 (Machine.enter e s) :=
    Good.idle ((Went.refl _).touch rfl) _ fun _ h => Good.idle h _ fun _ h => Good.takeInterrupt h _ _ (by omega)
  cases e <;> exact x

theorem Good.resetSequence (s : State) : Good s.resetLatch (SameExec s.resetLatch) 0 (resetSequence s) :=
  Good.idle ((Went.refl _).touch rfl) _ fun _ h => Good.idle h _ fun _ h =>
    Good.idle h _ fun _ h => Good.idle (h.touch rfl) _ fun _ h => Good.idle (h.touch rfl) _ fun _ h =>
    Good.cycle (h.touch rfl) _ fun _ _ h => Good.cycle h _ fun _ _ h => Good.finish (h.touch rfl) (by omega)

end Templates

section Touches

variable (v : Byte) (s : State)

theorem touch_adc : Touch s (adc v s) := by
  unfold adc
  simp only []
  split
  · split <;> rfl
  · rfl

theorem touch_sbc : Touch s (sbc v s) := by
  unfold sbc
  simp only []
  split
  · split <;> rfl
  · rfl

end Touches

/-! ## Every instruction -/

/-- The execution state after an instruction: `WAI` and `STP` may change it, and then nothing is committed. -/
def ExecAfter (i : Instr) (s t : State) : Prop :=
  t.execState = s.execState ∨
    (t.committed = .none ∧ ((i = .wai ∧ t.execState = .waiting) ∨ (i = .stp ∧ t.execState = .stopped)))

theorem Good.imp {s₀ : State} {X Y : State → Prop} {n : Nat} {a : Action} (h : Good s₀ X n a) (xy : ∀ t, X t → Y t) :
    Good s₀ Y n a :=
  h.mono fun _ t ⟨e, l, x⟩ => ⟨e, l, xy t x⟩

theorem Good.jump {s₀ s : State} {n : Nat} (h : Went s₀ n s) (ptr : Word) (l : n ≤ 6) :
    Good s₀ (SameExec s₀) n (jumpThrough ptr s) :=
  Good.cycle h _ fun _ _ h => Good.last h _ fun _ _ h => Good.finish (h.touch rfl) (by omega)

theorem good_brk (sig : Byte) (s : State) : Good s (SameExec s) 0 (cyclesBrk sig s) := by
  unfold cyclesBrk
  refine Good.start (.refl s) _ fun _ h => Good.cycle h _ fun sig t h => ?_
  have c : Went s 2 (t.callBrkHook sig) := by
    unfold State.callBrkHook
    split
    · exact h.hook rfl
    · exact h
  simp only []
  split
  · exact Good.finish (c.touch rfl) (by omega)
  · exact Good.takeInterrupt c _ _ (by omega)

theorem good_jsr (al ah : Byte) (s : State) : Good s (SameExec s) 0 (cyclesJsr al ah s) :=
  Good.start (.refl s) _ fun _ h => Good.cycle h _ fun _ _ h => Good.idle h _ fun _ h => Good.pushOp h _ fun _ h =>
    Good.pushOp h _ fun _ h => Good.last h _ fun _ _ h => Good.finish (h.touch rfl) (by omega)

theorem good_rti (s : State) : Good s (SameExec s) 0 (cyclesRti s) :=
  Good.start (.refl s) _ fun _ h => Good.idle h _ fun _ h => Good.idle h _ fun _ h => Good.pull h fun _ _ h =>
    Good.pull (h.touch rfl) fun _ _ h => Good.pull (h.touch rfl) fun _ _ h => Good.finish (h.touch rfl) (by omega)

theorem good_rts (s : State) : Good s (SameExec s) 0 (cyclesRts s) :=
  Good.start (.refl s) _ fun _ h => Good.idle h _ fun _ h => Good.idle h _ fun _ h => Good.pull h fun _ _ h =>
    Good.pull h fun _ _ h => Good.last (h.touch rfl) _ fun _ _ h => Good.finish (h.touch rfl) (by omega)

theorem good_jmpAbs (al ah : Byte) (s : State) : Good s (SameExec s) 0 (cyclesJmpAbs al ah s) :=
  Good.start (.refl s) _ fun _ h => Good.cycle h _ fun _ _ h => Good.last h _ fun _ _ h =>
    Good.finish (h.touch rfl) (by omega)

theorem good_jmpAbsi (al ah : Byte) (s : State) : Good s (SameExec s) 0 (cyclesJmpAbsi al ah s) :=
  Good.start (.refl s) _ fun _ h => Good.cycle h _ fun _ _ h => Good.cycle h _ fun _ _ h =>
    Good.idle (h.touch rfl) _ fun _ h => Good.jump h _ (by omega)

theorem good_jmpAbsxi (al ah : Byte) (s : State) : Good s (SameExec s) 0 (cyclesJmpAbsxi al ah s) :=
  Good.start (.refl s) _ fun _ h => Good.cycle h _ fun _ _ h => Good.cycle h _ fun _ _ h =>
    Good.idle (h.touch rfl) _ fun _ h => Good.jump (h.touch rfl) _ (by omega)

theorem good_nop5C (al ah : Byte) (s : State) : Good s (SameExec s) 0 (cyclesNop5C al ah s) :=
  Good.start (.refl s) _ fun _ h => Good.cycle h _ fun _ _ h => Good.cycle h _ fun _ _ h => Good.idle h _ fun _ h =>
    Good.idle h _ fun _ h => Good.idle h _ fun _ h => Good.idle h _ fun _ h => Good.last h _ fun _ _ h =>
    Good.finish h (by omega)

theorem good_wai (s : State) : Good s (ExecAfter .wai s) 0 (cyclesWai s) := by
  refine Good.start (.refl s) _ fun _ h => Good.idle h _ fun _ h => Good.last h _ fun _ t h => ?_
  unfold State.staysAwake
  split
  · exact (Good.finish h (by omega)).imp fun _ x => .inl x
  · rename_i c
    have w : Went { s with execState := .waiting } 3 (t.setExec .waiting) :=
      ⟨rfl, h.hooks, h.params, h.script, h.resetSeen, h.instrCount, h.cycleCount, h.trace, h.memWf, h.pendReset⟩
    have e := w.endOfInstruction
    refine ⟨⟨e.hooks, e.params, e.script, e.resetSeen, e.instrCount, e.cycleCount, e.trace, e.memWf, e.pendReset, e.ctx⟩,
      by omega, .inr ⟨(endOfInstruction_committed _).trans ?_, .inl ⟨rfl, endOfInstruction_execState _⟩⟩⟩
    simp only [Bool.or_eq_true, not_or, bne_iff_ne, ne_eq, not_not] at c
    exact c.2

theorem good_stp (s : State) : Good s (ExecAfter .stp s) 0 (cyclesStp s) := by
  refine Good.start (.refl s) _ fun _ h => Good.idle h _ fun _ h => Good.last h _ fun _ t h => ?_
  have c : Went s 3 t.callStpHook := by
    unfold State.callStpHook
    split
    · exact h.hook rfl
    · exact h
  simp only []
  split
  · exact (Good.finish c (by omega)).imp fun _ x => .inl x
  · have w : Went { s with execState := .stopped } 3 t.callStpHook.halt :=
      ⟨rfl, c.hooks, c.params, c.script, c.resetSeen, c.instrCount, c.cycleCount, c.trace, c.memWf, c.pendReset⟩
    have e := w.endOfInstruction
    exact ⟨⟨e.hooks, e.params, e.script, e.resetSeen, e.instrCount, e.cycleCount, e.trace, e.memWf, e.pendReset, e.ctx⟩,
      by omega, .inr ⟨endOfInstruction_committed _, .inr ⟨rfl, endOfInstruction_execState _⟩⟩⟩

/-- Every instruction but `WAI` and `STP` keeps the execution state, under every script. -/
theorem good_of_ne (i : Instr) (s : State) (hw : i ≠ .wai) (hs : i ≠ .stp) :
    Good s (SameExec s) 0 (cyclesOf i s) := by
  cases i with
  | brk sig => exact good_brk sig s
  | oraZpxi d => exact Good.read _ _ (fun _ _ => rfl) s
  | nop02 d => exact Good.read _ _ (fun _ _ => rfl) s
  | nop03 => exact Good.one _ s
  | tsbZp d => exact Good.rmw _ _ _ (fun _ _ => rfl) s
  | oraZp d => exact Good.read _ _ (fun _ _ => rfl) s
  | aslZp d => exact Good.rmw _ _ _ (fun _ _ => rfl) s
  | rmb0 d => exact Good.rmw _ _ _ (fun _ _ => rfl) s
  | php =>
    exact Good.start (.refl s) _ fun _ h => Good.idle h _ fun _ h => Good.pushOp (h.touch rfl) _ fun _ h => Good.finish h (by omega)
  | oraImm d => exact Good.read _ _ (fun _ _ => rfl) s
  | aslAcc => exact Good.implied _ (fun _ => rfl) s
  | nop0B => exact Good.one _ s
  | tsbAbs al ah => exact Good.rmw _ _ _ (fun _ _ => rfl) s
  | oraAbs al ah => exact Good.read _ _ (fun _ _ => rfl) s
  | aslAbs al ah => exact Good.rmw _ _ _ (fun _ _ => rfl) s
  | bbr0 zp rel => exact Good.bitBranch _ _ _ _ _ s
  | bpl d => exact Good.branch _ _ _ s
  | oraZpiy d => exact Good.read _ _ (fun _ _ => rfl) s
  | oraZpi d => exact Good.read _ _ (fun _ _ => rfl) s
  | nop13 => exact Good.one _ s
  | trbZp d => exact Good.rmw _ _ _ (fun _ _ => rfl) s
  | oraZpx d => exact Good.read _ _ (fun _ _ => rfl) s
  | aslZpx d => exact Good.rmw _ _ _ (fun _ _ => rfl) s
  | rmb1 d => exact Good.rmw _ _ _ (fun _ _ => rfl) s
  | clc => exact Good.implied _ (fun _ => rfl) s
  | oraAbsy al ah => exact Good.read _ _ (fun _ _ => rfl) s
  | incAcc => exact Good.implied _ (fun _ => rfl) s
  | nop1B => exact Good.one _ s
  | trbAbs al ah => exact Good.rmw _ _ _ (fun _ _ => rfl) s
  | oraAbsx al ah => exact Good.read _ _ (fun _ _ => rfl) s
  | aslAbsx al ah => exact Good.rmw _ _ _ (fun _ _ => rfl) s
  | bbr1 zp rel => exact Good.bitBranch _ _ _ _ _ s
  | jsr al ah => exact good_jsr al ah s
  | andZpxi d => exact Good.read _ _ (fun _ _ => rfl) s
  | nop22 d => exact Good.read _ _ (fun _ _ => rfl) s
  | nop23 => exact Good.one _ s
  | bitZp d => exact Good.read _ _ (fun _ _ => rfl) s
  | andZp d => exact Good.read _ _ (fun _ _ => rfl) s
  | rolZp d => exact Good.rmw _ _ _ (fun _ _ => rfl) s
  | rmb2 d => exact Good.rmw _ _ _ (fun _ _ => rfl) s
  | plp => exact Good.pullI _ (fun _ _ => rfl) s
  | andImm d => exact Good.read _ _ (fun _ _ => rfl) s
  | rolAcc => exact Good.implied _ (fun _ => rfl) s
  | nop2B => exact Good.one _ s
  | bitAbs al ah => exact Good.read _ _ (fun _ _ => rfl) s
  | andAbs al ah => exact Good.read _ _ (fun _ _ => rfl) s
  | rolAbs al ah => exact Good.rmw _ _ _ (fun _ _ => rfl) s
  | bbr2 zp rel => exact Good.bitBranch _ _ _ _ _ s
  | bmi d => exact Good.branch _ _ _ s
  | andZpiy d => exact Good.read _ _ (fun _ _ => rfl) s
  | andZpi d => exact Good.read _ _ (fun _ _ => rfl) s
  | nop33 => exact Good.one _ s
  | bitZpx d => exact Good.read _ _ (fun _ _ => rfl) s
  | andZpx d => exact Good.read _ _ (fun _ _ => rfl) s
  | rolZpx d => exact Good.rmw _ _ _ (fun _ _ => rfl) s
  | rmb3 d => exact Good.rmw _ _ _ (fun _ _ => rfl) s
  | sec => exact Good.implied _ (fun _ => rfl) s
  | andAbsy al ah => exact Good.read _ _ (fun _ _ => rfl) s
  | decAcc => exact Good.implied _ (fun _ => rfl) s
  | nop3B => exact Good.one _ s
  | bitAbsx al ah => exact Good.read _ _ (fun _ _ => rfl) s
  | andAbsx al ah => exact Good.read _ _ (fun _ _ => rfl) s
  | rolAbsx al ah => exact Good.rmw _ _ _ (fun _ _ => rfl) s
  | bbr3 zp rel => exact Good.bitBranch _ _ _ _ _ s
  | rti => exact good_rti s
  | eorZpxi d => exact Good.read _ _ (fun _ _ => rfl) s
  | nop42 d => exact Good.read _ _ (fun _ _ => rfl) s
  | nop43 => exact Good.one _ s
  | nop44 d => exact Good.read _ _ (fun _ _ => rfl) s
  | eorZp d => exact Good.read _ _ (fun _ _ => rfl) s
  | lsrZp d => exact Good.rmw _ _ _ (fun _ _ => rfl) s
  | rmb4 d => exact Good.rmw _ _ _ (fun _ _ => rfl) s
  | pha => exact Good.push _ _ s
  | eorImm d => exact Good.read _ _ (fun _ _ => rfl) s
  | lsrAcc => exact Good.implied _ (fun _ => rfl) s
  | nop4B => exact Good.one _ s
  | jmpAbs al ah => exact good_jmpAbs al ah s
  | eorAbs al ah => exact Good.read _ _ (fun _ _ => rfl) s
  | lsrAbs al ah => exact Good.rmw _ _ _ (fun _ _ => rfl) s
  | bbr4 zp rel => exact Good.bitBranch _ _ _ _ _ s
  | bvc d => exact Good.branch _ _ _ s
  | eorZpiy d => exact Good.read _ _ (fun _ _ => rfl) s
  | eorZpi d => exact Good.read _ _ (fun _ _ => rfl) s
  | nop53 => exact Good.one _ s
  | nop54 d => exact Good.read _ _ (fun _ _ => rfl) s
  | eorZpx d => exact Good.read _ _ (fun _ _ => rfl) s
  | lsrZpx d => exact Good.rmw _ _ _ (fun _ _ => rfl) s
  | rmb5 d => exact Good.rmw _ _ _ (fun _ _ => rfl) s
  | cli => exact Good.implied _ (fun _ => rfl) s
  | eorAbsy al ah => exact Good.read _ _ (fun _ _ => rfl) s
  | phy => exact Good.push _ _ s
  | nop5B => exact Good.one _ s
  | nop5C al ah => exact good_nop5C al ah s
  | eorAbsx al ah => exact Good.read _ _ (fun _ _ => rfl) s
  | lsrAbsx al ah => exact Good.rmw _ _ _ (fun _ _ => rfl) s
  | bbr5 zp rel => exact Good.bitBranch _ _ _ _ _ s
  | rts => exact good_rts s
  | adcZpxi d => exact Good.decimal _ _ touch_adc s
  | nop62 d => exact Good.read _ _ (fun _ _ => rfl) s
  | nop63 => exact Good.one _ s
  | stzZp d => exact Good.store _ _ _ s
  | adcZp d => exact Good.decimal _ _ touch_adc s
  | rorZp d => exact Good.rmw _ _ _ (fun _ _ => rfl) s
  | rmb6 d => exact Good.rmw _ _ _ (fun _ _ => rfl) s
  | pla => exact Good.pullI _ (fun _ _ => rfl) s
  | adcImm d => exact Good.decimal _ _ touch_adc s
  | rorAcc => exact Good.implied _ (fun _ => rfl) s
  | nop6B => exact Good.one _ s
  | jmpAbsi al ah => exact good_jmpAbsi al ah s
  | adcAbs al ah => exact Good.decimal _ _ touch_adc s
  | rorAbs al ah => exact Good.rmw _ _ _ (fun _ _ => rfl) s
  | bbr6 zp rel => exact Good.bitBranch _ _ _ _ _ s
  | bvs d => exact Good.branch _ _ _ s
  | adcZpiy d => exact Good.decimal _ _ touch_adc s
  | adcZpi d => exact Good.decimal _ _ touch_adc s
  | nop73 => exact Good.one _ s
  | stzZpx d => exact Good.store _ _ _ s
  | adcZpx d => exact Good.decimal _ _ touch_adc s
  | rorZpx d => exact Good.rmw _ _ _ (fun _ _ => rfl) s
  | rmb7 d => exact Good.rmw _ _ _ (fun _ _ => rfl) s
  | sei => exact Good.implied _ (fun _ => rfl) s
  | adcAbsy al ah => exact Good.decimal _ _ touch_adc s
  | ply => exact Good.pullI _ (fun _ _ => rfl) s
  | nop7B => exact Good.one _ s
  | jmpAbsxi al ah => exact good_jmpAbsxi al ah s
  | adcAbsx al ah => exact Good.decimal _ _ touch_adc s
  | rorAbsx al ah => exact Good.rmw _ _ _ (fun _ _ => rfl) s
  | bbr7 zp rel => exact Good.bitBranch _ _ _ _ _ s
  | bra d => exact Good.branch _ _ _ s
  | staZpxi d => exact Good.store _ _ _ s
  | nop82 d => exact Good.read _ _ (fun _ _ => rfl) s
  | nop83 => exact Good.one _ s
  | styZp d => exact Good.store _ _ _ s
  | staZp d => exact Good.store _ _ _ s
  | stxZp d => exact Good.store _ _ _ s
  | smb0 d => exact Good.rmw _ _ _ (fun _ _ => rfl) s
  | dey => exact Good.implied _ (fun _ => rfl) s
  | bitImm d => exact Good.read _ _ (fun _ _ => rfl) s
  | txa => exact Good.implied _ (fun _ => rfl) s
  | nop8B => exact Good.one _ s
  | styAbs al ah => exact Good.store _ _ _ s
  | staAbs al ah => exact Good.store _ _ _ s
  | stxAbs al ah => exact Good.store _ _ _ s
  | bbs0 zp rel => exact Good.bitBranch _ _ _ _ _ s
  | bcc d => exact Good.branch _ _ _ s
  | staZpiy d => exact Good.store _ _ _ s
  | staZpi d => exact Good.store _ _ _ s
  | nop93 => exact Good.one _ s
  | styZpx d => exact Good.store _ _ _ s
  | staZpx d => exact Good.store _ _ _ s
  | stxZpy d => exact Good.store _ _ _ s
  | smb1 d => exact Good.rmw _ _ _ (fun _ _ => rfl) s
  | tya => exact Good.implied _ (fun _ => rfl) s
  | staAbsy al ah => exact Good.store _ _ _ s
  | txs => exact Good.implied _ (fun _ => rfl) s
  | nop9B => exact Good.one _ s
  | stzAbs al ah => exact Good.store _ _ _ s
  | staAbsx al ah => exact Good.store _ _ _ s
  | stzAbsx al ah => exact Good.store _ _ _ s
  | bbs1 zp rel => exact Good.bitBranch _ _ _ _ _ s
  | ldyImm d => exact Good.read _ _ (fun _ _ => rfl) s
  | ldaZpxi d => exact Good.read _ _ (fun _ _ => rfl) s
  | ldxImm d => exact Good.read _ _ (fun _ _ => rfl) s
  | nopA3 => exact Good.one _ s
  | ldyZp d => exact Good.read _ _ (fun _ _ => rfl) s
  | ldaZp d => exact Good.read _ _ (fun _ _ => rfl) s
  | ldxZp d => exact Good.read _ _ (fun _ _ => rfl) s
  | smb2 d => exact Good.rmw _ _ _ (fun _ _ => rfl) s
  | tay => exact Good.implied _ (fun _ => rfl) s
  | ldaImm d => exact Good.read _ _ (fun _ _ => rfl) s
  | tax => exact Good.implied _ (fun _ => rfl) s
  | nopAB => exact Good.one _ s
  | ldyAbs al ah => exact Good.read _ _ (fun _ _ => rfl) s
  | ldaAbs al ah => exact Good.read _ _ (fun _ _ => rfl) s
  | ldxAbs al ah => exact Good.read _ _ (fun _ _ => rfl) s
  | bbs2 zp rel => exact Good.bitBranch _ _ _ _ _ s
  | bcs d => exact Good.branch _ _ _ s
  | ldaZpiy d => exact Good.read _ _ (fun _ _ => rfl) s
  | ldaZpi d => exact Good.read _ _ (fun _ _ => rfl) s
  | nopB3 => exact Good.one _ s
  | ldyZpx d => exact Good.read _ _ (fun _ _ => rfl) s
  | ldaZpx d => exact Good.read _ _ (fun _ _ => rfl) s
  | ldxZpy d => exact Good.read _ _ (fun _ _ => rfl) s
  | smb3 d => exact Good.rmw _ _ _ (fun _ _ => rfl) s
  | clv => exact Good.implied _ (fun _ => rfl) s
  | ldaAbsy al ah => exact Good.read _ _ (fun _ _ => rfl) s
  | tsx => exact Good.implied _ (fun _ => rfl) s
  | nopBB => exact Good.one _ s
  | ldyAbsx al ah => exact Good.read _ _ (fun _ _ => rfl) s
  | ldaAbsx al ah => exact Good.read _ _ (fun _ _ => rfl) s
  | ldxAbsy al ah => exact Good.read _ _ (fun _ _ => rfl) s
  | bbs3 zp rel => exact Good.bitBranch _ _ _ _ _ s
  | cpyImm d => exact Good.read _ _ (fun _ _ => rfl) s
  | cmpZpxi d => exact Good.read _ _ (fun _ _ => rfl) s
  | nopC2 d => exact Good.read _ _ (fun _ _ => rfl) s
  | nopC3 => exact Good.one _ s
  | cpyZp d => exact Good.read _ _ (fun _ _ => rfl) s
  | cmpZp d => exact Good.read _ _ (fun _ _ => rfl) s
  | decZp d => exact Good.rmw _ _ _ (fun _ _ => rfl) s
  | smb4 d => exact Good.rmw _ _ _ (fun _ _ => rfl) s
  | iny => exact Good.implied _ (fun _ => rfl) s
  | cmpImm d => exact Good.read _ _ (fun _ _ => rfl) s
  | dex => exact Good.implied _ (fun _ => rfl) s
  | wai => exact absurd rfl hw
  | cpyAbs al ah => exact Good.read _ _ (fun _ _ => rfl) s
  | cmpAbs al ah => exact Good.read _ _ (fun _ _ => rfl) s
  | decAbs al ah => exact Good.rmw _ _ _ (fun _ _ => rfl) s
  | bbs4 zp rel => exact Good.bitBranch _ _ _ _ _ s
  | bne d => exact Good.branch _ _ _ s
  | cmpZpiy d => exact Good.read _ _ (fun _ _ => rfl) s
  | cmpZpi d => exact Good.read _ _ (fun _ _ => rfl) s
  | nopD3 => exact Good.one _ s
  | nopD4 d => exact Good.read _ _ (fun _ _ => rfl) s
  | cmpZpx d => exact Good.read _ _ (fun _ _ => rfl) s
  | decZpx d => exact Good.rmw _ _ _ (fun _ _ => rfl) s
  | smb5 d => exact Good.rmw _ _ _ (fun _ _ => rfl) s
  | cld => exact Good.implied _ (fun _ => rfl) s
  | cmpAbsy al ah => exact Good.read _ _ (fun _ _ => rfl) s
  | phx => exact Good.push _ _ s
  | stp => exact absurd rfl hs
  | nopDC al ah => exact Good.read _ _ (fun _ _ => rfl) s
  | cmpAbsx al ah => exact Good.read _ _ (fun _ _ => rfl) s
  | decAbsx al ah => exact Good.rmw _ _ _ (fun _ _ => rfl) s
  | bbs5 zp rel => exact Good.bitBranch _ _ _ _ _ s
  | cpxImm d => exact Good.read _ _ (fun _ _ => rfl) s
  | sbcZpxi d => exact Good.decimal _ _ touch_sbc s
  | nopE2 d => exact Good.read _ _ (fun _ _ => rfl) s
  | nopE3 => exact Good.one _ s
  | cpxZp d => exact Good.read _ _ (fun _ _ => rfl) s
  | sbcZp d => exact Good.decimal _ _ touch_sbc s
  | incZp d => exact Good.rmw _ _ _ (fun _ _ => rfl) s
  | smb6 d => exact Good.rmw _ _ _ (fun _ _ => rfl) s
  | inx => exact Good.implied _ (fun _ => rfl) s
  | sbcImm d => exact Good.decimal _ _ touch_sbc s
  | nop => exact Good.implied _ (fun _ => rfl) s
  | nopEB => exact Good.one _ s
  | cpxAbs al ah => exact Good.read _ _ (fun _ _ => rfl) s
  | sbcAbs al ah => exact Good.decimal _ _ touch_sbc s
  | incAbs al ah => exact Good.rmw _ _ _ (fun _ _ => rfl) s
  | bbs6 zp rel => exact Good.bitBranch _ _ _ _ _ s
  | beq d => exact Good.branch _ _ _ s
  | sbcZpiy d => exact Good.decimal _ _ touch_sbc s
  | sbcZpi d => exact Good.decimal _ _ touch_sbc s
  | nopF3 => exact Good.one _ s
  | nopF4 d => exact Good.read _ _ (fun _ _ => rfl) s
  | sbcZpx d => exact Good.decimal _ _ touch_sbc s
  | incZpx d => exact Good.rmw _ _ _ (fun _ _ => rfl) s
  | smb7 d => exact Good.rmw _ _ _ (fun _ _ => rfl) s
  | sed => exact Good.implied _ (fun _ => rfl) s
  | sbcAbsy al ah => exact Good.decimal _ _ touch_sbc s
  | plx => exact Good.pullI _ (fun _ _ => rfl) s
  | nopFB => exact Good.one _ s
  | nopFC al ah => exact Good.read _ _ (fun _ _ => rfl) s
  | sbcAbsx al ah => exact Good.decimal _ _ touch_sbc s
  | incAbsx al ah => exact Good.rmw _ _ _ (fun _ _ => rfl) s
  | bbs7 zp rel => exact Good.bitBranch _ _ _ _ _ s

/-- Every instruction, under every script. -/
theorem good_cyclesOf (i : Instr) (s : State) : Good s (ExecAfter i s) 0 (cyclesOf i s) := by
  by_cases hw : i = .wai
  · subst hw
    exact good_wai s
  · by_cases hs : i = .stp
    · subst hs
      exact good_stp s
    · exact (good_of_ne i s hw hs).imp fun _ x => .inl x

/-- An instruction as one step performs the cycles of its action. -/
theorem exec_eq_cyclesOf (i : Instr) (s : State) : exec i s = complete (cyclesOf i s) := by
  cases i <;> rfl

end Sys2Proof.Machine
end

