-- ==== Sys2Proof/Laws/Interrupt.lean ====
section
/-! SUPPORT. Pushes and pulls on the stack, taking an interrupt and returning from one, under a silent host: the
state each leaves before the end-of-instruction point. -/

namespace Sys2Proof.Machine

@[simp] theorem byte_sub_one_one (x : Byte) : x - 1#8 - 1#8 = x - 2#8 := by bv_omega
@[simp] theorem byte_sub_two_one (x : Byte) : x - 2#8 - 1#8 = x - 3#8 := by bv_omega
@[simp] theorem byte_add_one_one (x : Byte) : x + 1#8 + 1#8 = x + 2#8 := by bv_omega
@[simp] theorem byte_add_two_one (x : Byte) : x + 2#8 + 1#8 = x + 3#8 := by bv_omega

/-- The three stack bytes below the stack pointer are three different bytes (R23). -/
theorem stack_addresses_differ (x : Byte) :
    Config.stackPage ||| zext x ≠ Config.stackPage ||| zext (x - 1) ∧
    Config.stackPage ||| zext x ≠ Config.stackPage ||| zext (x - 2) ∧
    Config.stackPage ||| zext (x - 1) ≠ Config.stackPage ||| zext (x - 2) := by
  revert x; decide

theorem run_spent_pull {s : State} {l w c} (h : s.script = []) (k : Byte → State → Action) :
    (pull (s.spent l w c) k).run =
      (k (s.byteAt (s.stackAbove 1))
        ((s.setSp (s.sp + 1)).spent (l ++ [.read (s.stackAbove 1)]) w { c with cycle := c.cycle + 1 })).run := by
  rw [run_pull (by exact h),
    show (s.spent l w c).setSp ((s.spent l w c).sp + 1) = (s.setSp (s.sp + 1)).spent l w c from rfl,
    State.tally_eq_spent, State.spent_spent]
  rfl

theorem run_spent_push {s : State} {l w c} (h : s.script = []) (v : Byte) (k : State → Action) :
    (push v (s.spent l w c) k).run =
      (k (((s.setMem (s.mem.write s.stackAddr.toNat v)).setSp (s.sp - 1)).spent (l ++ [.write s.stackAddr v]) w
        { c with cycle := c.cycle + 1 })).run := by
  unfold push pushOp
  rw [run_spent_write h]
  rfl

/-- The shared interrupt path (R266, R335): three pushes, two vector reads, `I` set and `D` cleared. -/
theorem run_takeInterrupt {s : State} (h : s.script = []) (brk : Bool) (vec : Word) :
    let status := s.p.statusByte brk
    ∃ c, (takeInterrupt brk vec s).run =
      ((s.interrupted s.pc status vec).recorded (s.interrupted s.pc status vec).pc
        ((s.interruptCalls s.pc status vec).reverse ++ s.trace) (s.cycleCount + 5)
        (if brk then s.sampled else s.committed) c).endOfInstruction := by
  intro status
  unfold takeInterrupt
  rw [run_push h, run_push (by simp [h]), run_pushStatus (by simp [h]), run_read (by simp [h])]
  cases brk
  · rw [if_neg (by decide), run_read (by simp [h]), finish, run_done]
    refine ⟨{ s.ctx with cycle := s.ctx.cycle + 5 }, congrArg _ ?_⟩
    apply State.ext <;>
      simp [State.interrupted, State.interruptMem, State.interruptCalls, State.stackBelow, State.stackAddr,
        State.recorded, status]
  · rw [if_pos rfl, run_read (by simp [h]), finish, run_done]
    refine ⟨{ s.ctx with cycle := s.ctx.cycle + 5 }, congrArg _ ?_⟩
    apply State.ext <;>
      simp [State.interrupted, State.interruptMem, State.interruptCalls, State.stackBelow, State.stackAddr,
        State.recorded, State.sampled, State.irqMask, status]

/-- `RTI` after its opcode fetch (R265): the six flags, then `PC`, from the stack; the sample sees the restored
`I`. -/
theorem run_returnFromInterrupt {s : State} {l w c} (h : s.script = []) :
    ∃ c', (returnFromInterrupt (s.spent l w c)).run =
      ((((s.setSp (s.sp + 3)).setPc (word (s.byteAt (s.stackAbove 3)) (s.byteAt (s.stackAbove 2)))).setStatus
          (s.byteAt (s.stackAbove 1))).recorded (word (s.byteAt (s.stackAbove 3)) (s.byteAt (s.stackAbove 2)))
        ((l ++ [HostCall.read w] ++ [HostCall.read s.stackAddr] ++ [HostCall.read (s.stackAbove 1)] ++
          [HostCall.read (s.stackAbove 2)] ++
          [HostCall.read (s.stackAbove 3)]).reverse ++ s.trace)
        (s.cycleCount + (l ++ [HostCall.read w] ++ [HostCall.read s.stackAddr] ++ [HostCall.read (s.stackAbove 1)] ++
          [HostCall.read (s.stackAbove 2)] ++ [HostCall.read (s.stackAbove 3)]).length)
        (s.setStatus (s.byteAt (s.stackAbove 1))).sampled c').endOfInstruction := by
  unfold returnFromInterrupt
  rw [run_spent_idle h, run_spent_idle h, run_spent_pull h,
    show ∀ v l w c, (State.spent (s.setSp (s.sp + 1)) l w c).setStatus v =
      ((s.setSp (s.sp + 1)).setStatus v).spent l w c from fun _ _ _ _ => rfl,
    run_spent_pull (by exact h),
    show ∀ s l w c, (State.spent s l w c).sample = s.sample.spent l w c from fun _ _ _ _ => rfl,
    run_spent_pull (by exact h), finish, run_done]
  rw [show ∀ v, ((s.setSp (s.sp + 1)).setStatus v).sp + 1 = s.sp + 2 from fun _ => byte_add_one_one _,
    show ∀ v, (State.sample (State.setSp ((s.setSp (s.sp + 1)).setStatus v) (s.sp + 2))).sp + 1 = s.sp + 3 from
      fun _ => byte_add_two_one _]
  refine ⟨{ c with cycle := c.cycle + 5 }, congrArg _ ?_⟩
  apply State.ext <;>
    simp [State.recorded, State.stackAbove, State.stackAddr, State.setStatus, State.sampled, State.irqMask,
      State.byteAt, State.sample]

/-- `RTS` (R139, R264): `PC` is one past the address pulled, and the last cycle reads that address. -/
theorem run_cyclesRts {s : State} (h : s.script = []) :
    let ret := word (s.byteAt (s.stackAbove 2)) (s.byteAt (s.stackAbove 1))
    ∃ c, (cyclesRts s).run =
      ((s.setSp (s.sp + 2)).recorded (ret + 1)
        ([HostCall.read s.pc, .read (s.pc + 1), .read s.stackAddr, .read (s.stackAbove 1), .read (s.stackAbove 2),
          .read ret].reverse ++ s.trace)
        (s.cycleCount + 6) s.sampled c).endOfInstruction := by
  intro ret
  unfold cyclesRts
  rw [run_start_spent h, run_spent_idle h, run_spent_idle h, run_spent_pull h, run_spent_pull (by exact h),
    State.setPc_spent, run_last_spent_read (by exact h), finish, run_done,
    show (s.setSp (s.sp + 1)).sp + 1 = s.sp + 2 from byte_add_one_one _]
  refine ⟨{ Ctx.idle with active := true, opcode := 0x60, cycle := 7 }, congrArg _ ?_⟩
  apply State.ext <;>
    simp [State.recorded, State.spentSampled, State.stackAbove, State.stackAddr, State.sampled, State.irqMask,
      State.byteAt, Ctx.idle, ret]

@[simp] theorem acknowledge_a (e : Entry) (s : State) : (e.acknowledge s).a = s.a := by cases e <;> rfl
@[simp] theorem acknowledge_x (e : Entry) (s : State) : (e.acknowledge s).x = s.x := by cases e <;> rfl
@[simp] theorem acknowledge_y (e : Entry) (s : State) : (e.acknowledge s).y = s.y := by cases e <;> rfl
@[simp] theorem acknowledge_sp (e : Entry) (s : State) : (e.acknowledge s).sp = s.sp := by cases e <;> rfl
@[simp] theorem acknowledge_pc (e : Entry) (s : State) : (e.acknowledge s).pc = s.pc := by cases e <;> rfl
@[simp] theorem acknowledge_p (e : Entry) (s : State) : (e.acknowledge s).p = s.p := by cases e <;> rfl
@[simp] theorem acknowledge_execState (e : Entry) (s : State) : (e.acknowledge s).execState = s.execState := by cases e <;> rfl
@[simp] theorem acknowledge_pendReset (e : Entry) (s : State) : (e.acknowledge s).pendReset = s.pendReset := by cases e <;> rfl
@[simp] theorem acknowledge_irqLine (e : Entry) (s : State) : (e.acknowledge s).irqLine = s.irqLine := by cases e <;> rfl
@[simp] theorem acknowledge_cycleCount (e : Entry) (s : State) : (e.acknowledge s).cycleCount = s.cycleCount := by cases e <;> rfl
@[simp] theorem acknowledge_instrCount (e : Entry) (s : State) : (e.acknowledge s).instrCount = s.instrCount := by cases e <;> rfl
@[simp] theorem acknowledge_stall (e : Entry) (s : State) : (e.acknowledge s).stall = s.stall := by cases e <;> rfl
@[simp] theorem acknowledge_breakReq (e : Entry) (s : State) : (e.acknowledge s).breakReq = s.breakReq := by cases e <;> rfl
@[simp] theorem acknowledge_ctx (e : Entry) (s : State) : (e.acknowledge s).ctx = s.ctx := by cases e <;> rfl
@[simp] theorem acknowledge_hooks (e : Entry) (s : State) : (e.acknowledge s).hooks = s.hooks := by cases e <;> rfl
@[simp] theorem acknowledge_params (e : Entry) (s : State) : (e.acknowledge s).params = s.params := by cases e <;> rfl
@[simp] theorem acknowledge_mem (e : Entry) (s : State) : (e.acknowledge s).mem = s.mem := by cases e <;> rfl
@[simp] theorem acknowledge_trace (e : Entry) (s : State) : (e.acknowledge s).trace = s.trace := by cases e <;> rfl
@[simp] theorem acknowledge_script (e : Entry) (s : State) : (e.acknowledge s).script = s.script := by cases e <;> rfl
@[simp] theorem acknowledge_draws (e : Entry) (s : State) : (e.acknowledge s).draws = s.draws := by cases e <;> rfl
@[simp] theorem acknowledge_resetSeen (e : Entry) (s : State) : (e.acknowledge s).resetSeen = s.resetSeen := by cases e <;> rfl
@[simp] theorem acknowledge_committed (e : Entry) (s : State) : (e.acknowledge s).committed = .none := by cases e <;> rfl

/-- A hardware entry (R335): two idle reads of `PC`, then the shared path with `B = 0`. -/
theorem run_enter {s : State} (h : s.script = []) (e : Entry) :
    ∃ c, (enter e s).run =
      (((e.acknowledge s).interrupted s.pc (s.p.statusByte false) e.vector).recorded
        (s.interrupted s.pc (s.p.statusByte false) e.vector).pc
        (([HostCall.read s.pc, .read s.pc] ++ s.interruptCalls s.pc (s.p.statusByte false) e.vector).reverse ++ s.trace)
        (s.cycleCount + 7) .none c).endOfInstruction := by
  unfold enter
  simp only []
  rw [run_idle (by simp [h]), run_idle (by simp [h])]
  obtain ⟨c, hc⟩ := run_takeInterrupt (s := (((e.acknowledge s).begin 0).tally (.read ((e.acknowledge s).begin 0).pc)).tally
    (.read (((e.acknowledge s).begin 0).tally (.read ((e.acknowledge s).begin 0).pc)).pc)) (by simp [h]) false e.vector
  refine ⟨c, hc.trans (congrArg _ ?_)⟩
  apply State.ext <;>
    simp [State.recorded, State.interrupted, State.interruptMem, State.interruptCalls, State.stackAddr, State.stackBelow]

/-- The RESET sequence (R340): the latch cleared, three stack reads with `S` going down, the vector. -/
theorem run_resetSequence {s : State} (h : s.script = []) :
    ∃ c, (resetSequence s).run =
      (State.recorded
        { s with
          pendReset := false, pendNmi := false, irqLine := false, execState := .running, resetSeen := true
          sp := s.sp - 3, p := { s.p with i := true, d := false } }
        (word (s.byteAt 0xFFFD) (s.byteAt 0xFFFC))
        ([HostCall.read s.pc, .read s.pc, .read s.stackAddr, .read (s.stackBelow 1), .read (s.stackBelow 2),
          .read 0xFFFC, .read 0xFFFD].reverse ++ s.trace)
        (s.cycleCount + 7) .none c).endOfInstruction := by
  have hr : s.resetLatch.script = [] := h
  unfold resetSequence idleStack
  simp only []
  rw [run_idle (by simp [hr]), run_idle (by simp [hr]), run_idle (by simp [hr]), run_idle (by simp [hr]),
    run_idle (by simp [hr]), run_read (by simp [hr]), run_read (by simp [hr]), finish, run_done]
  refine ⟨{ active := true, opcode := 0, cycle := 8, ea := 0, aux := 0, page := false, data := 0 }, congrArg _ ?_⟩
  apply State.ext <;>
    simp [State.recorded, State.resetLatch, State.stackAddr, State.stackBelow, State.byteAt, Ctx.idle, Config.vecReset]

end Sys2Proof.Machine
end

