-- ==== Sys2Proof/Laws/PerInstr.lean ====
section
/-! SUPPORT. One lemma per instruction about its encoding (R90, R91): the bytes are a well-formed instruction of one
to three bytes, as the first byte alone says. -/

namespace Sys2Proof.Laws.Length

/-- The encoding is one well-formed instruction, 1 to 3 bytes long. -/
def Statement (i : Instr) : Prop :=
  wellFormedBytes (encode i) = true ∧ 1 ≤ i.length ∧ i.length ≤ 3

/-- The three facts, each true by evaluation. -/
theorem intro {i : Instr} (w : wellFormedBytes (encode i) = true) (l : Nat.ble 1 i.length = true)
    (u : Nat.ble i.length 3 = true) : Statement i :=
  ⟨w, Nat.le_of_ble_eq_true l, Nat.le_of_ble_eq_true u⟩

theorem brk (sig : Byte) : Statement (.brk sig) := intro rfl rfl rfl
theorem oraZpxi (d : Byte) : Statement (.oraZpxi d) := intro rfl rfl rfl
theorem nop02 (d : Byte) : Statement (.nop02 d) := intro rfl rfl rfl
theorem tsbZp (d : Byte) : Statement (.tsbZp d) := intro rfl rfl rfl
theorem oraZp (d : Byte) : Statement (.oraZp d) := intro rfl rfl rfl
theorem aslZp (d : Byte) : Statement (.aslZp d) := intro rfl rfl rfl
theorem rmb0 (d : Byte) : Statement (.rmb0 d) := intro rfl rfl rfl
theorem oraImm (d : Byte) : Statement (.oraImm d) := intro rfl rfl rfl
theorem tsbAbs (al ah : Byte) : Statement (.tsbAbs al ah) := intro rfl rfl rfl
theorem oraAbs (al ah : Byte) : Statement (.oraAbs al ah) := intro rfl rfl rfl
theorem aslAbs (al ah : Byte) : Statement (.aslAbs al ah) := intro rfl rfl rfl
theorem bbr0 (zp rel : Byte) : Statement (.bbr0 zp rel) := intro rfl rfl rfl
theorem bpl (d : Byte) : Statement (.bpl d) := intro rfl rfl rfl
theorem oraZpiy (d : Byte) : Statement (.oraZpiy d) := intro rfl rfl rfl
theorem oraZpi (d : Byte) : Statement (.oraZpi d) := intro rfl rfl rfl
theorem trbZp (d : Byte) : Statement (.trbZp d) := intro rfl rfl rfl
theorem oraZpx (d : Byte) : Statement (.oraZpx d) := intro rfl rfl rfl
theorem aslZpx (d : Byte) : Statement (.aslZpx d) := intro rfl rfl rfl
theorem rmb1 (d : Byte) : Statement (.rmb1 d) := intro rfl rfl rfl
theorem oraAbsy (al ah : Byte) : Statement (.oraAbsy al ah) := intro rfl rfl rfl
theorem trbAbs (al ah : Byte) : Statement (.trbAbs al ah) := intro rfl rfl rfl
theorem oraAbsx (al ah : Byte) : Statement (.oraAbsx al ah) := intro rfl rfl rfl
theorem aslAbsx (al ah : Byte) : Statement (.aslAbsx al ah) := intro rfl rfl rfl
theorem bbr1 (zp rel : Byte) : Statement (.bbr1 zp rel) := intro rfl rfl rfl
theorem jsr (al ah : Byte) : Statement (.jsr al ah) := intro rfl rfl rfl
theorem andZpxi (d : Byte) : Statement (.andZpxi d) := intro rfl rfl rfl
theorem nop22 (d : Byte) : Statement (.nop22 d) := intro rfl rfl rfl
theorem bitZp (d : Byte) : Statement (.bitZp d) := intro rfl rfl rfl
theorem andZp (d : Byte) : Statement (.andZp d) := intro rfl rfl rfl
theorem rolZp (d : Byte) : Statement (.rolZp d) := intro rfl rfl rfl
theorem rmb2 (d : Byte) : Statement (.rmb2 d) := intro rfl rfl rfl
theorem andImm (d : Byte) : Statement (.andImm d) := intro rfl rfl rfl
theorem bitAbs (al ah : Byte) : Statement (.bitAbs al ah) := intro rfl rfl rfl
theorem andAbs (al ah : Byte) : Statement (.andAbs al ah) := intro rfl rfl rfl
theorem rolAbs (al ah : Byte) : Statement (.rolAbs al ah) := intro rfl rfl rfl
theorem bbr2 (zp rel : Byte) : Statement (.bbr2 zp rel) := intro rfl rfl rfl
theorem bmi (d : Byte) : Statement (.bmi d) := intro rfl rfl rfl
theorem andZpiy (d : Byte) : Statement (.andZpiy d) := intro rfl rfl rfl
theorem andZpi (d : Byte) : Statement (.andZpi d) := intro rfl rfl rfl
theorem bitZpx (d : Byte) : Statement (.bitZpx d) := intro rfl rfl rfl
theorem andZpx (d : Byte) : Statement (.andZpx d) := intro rfl rfl rfl
theorem rolZpx (d : Byte) : Statement (.rolZpx d) := intro rfl rfl rfl
theorem rmb3 (d : Byte) : Statement (.rmb3 d) := intro rfl rfl rfl
theorem andAbsy (al ah : Byte) : Statement (.andAbsy al ah) := intro rfl rfl rfl
theorem bitAbsx (al ah : Byte) : Statement (.bitAbsx al ah) := intro rfl rfl rfl
theorem andAbsx (al ah : Byte) : Statement (.andAbsx al ah) := intro rfl rfl rfl
theorem rolAbsx (al ah : Byte) : Statement (.rolAbsx al ah) := intro rfl rfl rfl
theorem bbr3 (zp rel : Byte) : Statement (.bbr3 zp rel) := intro rfl rfl rfl
theorem eorZpxi (d : Byte) : Statement (.eorZpxi d) := intro rfl rfl rfl
theorem nop42 (d : Byte) : Statement (.nop42 d) := intro rfl rfl rfl
theorem nop44 (d : Byte) : Statement (.nop44 d) := intro rfl rfl rfl
theorem eorZp (d : Byte) : Statement (.eorZp d) := intro rfl rfl rfl
theorem lsrZp (d : Byte) : Statement (.lsrZp d) := intro rfl rfl rfl
theorem rmb4 (d : Byte) : Statement (.rmb4 d) := intro rfl rfl rfl
theorem eorImm (d : Byte) : Statement (.eorImm d) := intro rfl rfl rfl
theorem jmpAbs (al ah : Byte) : Statement (.jmpAbs al ah) := intro rfl rfl rfl
theorem eorAbs (al ah : Byte) : Statement (.eorAbs al ah) := intro rfl rfl rfl
theorem lsrAbs (al ah : Byte) : Statement (.lsrAbs al ah) := intro rfl rfl rfl
theorem bbr4 (zp rel : Byte) : Statement (.bbr4 zp rel) := intro rfl rfl rfl
theorem bvc (d : Byte) : Statement (.bvc d) := intro rfl rfl rfl
theorem eorZpiy (d : Byte) : Statement (.eorZpiy d) := intro rfl rfl rfl
theorem eorZpi (d : Byte) : Statement (.eorZpi d) := intro rfl rfl rfl
theorem nop54 (d : Byte) : Statement (.nop54 d) := intro rfl rfl rfl
theorem eorZpx (d : Byte) : Statement (.eorZpx d) := intro rfl rfl rfl
theorem lsrZpx (d : Byte) : Statement (.lsrZpx d) := intro rfl rfl rfl
theorem rmb5 (d : Byte) : Statement (.rmb5 d) := intro rfl rfl rfl
theorem eorAbsy (al ah : Byte) : Statement (.eorAbsy al ah) := intro rfl rfl rfl
theorem nop5C (al ah : Byte) : Statement (.nop5C al ah) := intro rfl rfl rfl
theorem eorAbsx (al ah : Byte) : Statement (.eorAbsx al ah) := intro rfl rfl rfl
theorem lsrAbsx (al ah : Byte) : Statement (.lsrAbsx al ah) := intro rfl rfl rfl
theorem bbr5 (zp rel : Byte) : Statement (.bbr5 zp rel) := intro rfl rfl rfl
theorem adcZpxi (d : Byte) : Statement (.adcZpxi d) := intro rfl rfl rfl
theorem nop62 (d : Byte) : Statement (.nop62 d) := intro rfl rfl rfl
theorem stzZp (d : Byte) : Statement (.stzZp d) := intro rfl rfl rfl
theorem adcZp (d : Byte) : Statement (.adcZp d) := intro rfl rfl rfl
theorem rorZp (d : Byte) : Statement (.rorZp d) := intro rfl rfl rfl
theorem rmb6 (d : Byte) : Statement (.rmb6 d) := intro rfl rfl rfl
theorem adcImm (d : Byte) : Statement (.adcImm d) := intro rfl rfl rfl
theorem jmpAbsi (al ah : Byte) : Statement (.jmpAbsi al ah) := intro rfl rfl rfl
theorem adcAbs (al ah : Byte) : Statement (.adcAbs al ah) := intro rfl rfl rfl
theorem rorAbs (al ah : Byte) : Statement (.rorAbs al ah) := intro rfl rfl rfl
theorem bbr6 (zp rel : Byte) : Statement (.bbr6 zp rel) := intro rfl rfl rfl
theorem bvs (d : Byte) : Statement (.bvs d) := intro rfl rfl rfl
theorem adcZpiy (d : Byte) : Statement (.adcZpiy d) := intro rfl rfl rfl
theorem adcZpi (d : Byte) : Statement (.adcZpi d) := intro rfl rfl rfl
theorem stzZpx (d : Byte) : Statement (.stzZpx d) := intro rfl rfl rfl
theorem adcZpx (d : Byte) : Statement (.adcZpx d) := intro rfl rfl rfl
theorem rorZpx (d : Byte) : Statement (.rorZpx d) := intro rfl rfl rfl
theorem rmb7 (d : Byte) : Statement (.rmb7 d) := intro rfl rfl rfl
theorem adcAbsy (al ah : Byte) : Statement (.adcAbsy al ah) := intro rfl rfl rfl
theorem jmpAbsxi (al ah : Byte) : Statement (.jmpAbsxi al ah) := intro rfl rfl rfl
theorem adcAbsx (al ah : Byte) : Statement (.adcAbsx al ah) := intro rfl rfl rfl
theorem rorAbsx (al ah : Byte) : Statement (.rorAbsx al ah) := intro rfl rfl rfl
theorem bbr7 (zp rel : Byte) : Statement (.bbr7 zp rel) := intro rfl rfl rfl
theorem bra (d : Byte) : Statement (.bra d) := intro rfl rfl rfl
theorem staZpxi (d : Byte) : Statement (.staZpxi d) := intro rfl rfl rfl
theorem nop82 (d : Byte) : Statement (.nop82 d) := intro rfl rfl rfl
theorem styZp (d : Byte) : Statement (.styZp d) := intro rfl rfl rfl
theorem staZp (d : Byte) : Statement (.staZp d) := intro rfl rfl rfl
theorem stxZp (d : Byte) : Statement (.stxZp d) := intro rfl rfl rfl
theorem smb0 (d : Byte) : Statement (.smb0 d) := intro rfl rfl rfl
theorem bitImm (d : Byte) : Statement (.bitImm d) := intro rfl rfl rfl
theorem styAbs (al ah : Byte) : Statement (.styAbs al ah) := intro rfl rfl rfl
theorem staAbs (al ah : Byte) : Statement (.staAbs al ah) := intro rfl rfl rfl
theorem stxAbs (al ah : Byte) : Statement (.stxAbs al ah) := intro rfl rfl rfl
theorem bbs0 (zp rel : Byte) : Statement (.bbs0 zp rel) := intro rfl rfl rfl
theorem bcc (d : Byte) : Statement (.bcc d) := intro rfl rfl rfl
theorem staZpiy (d : Byte) : Statement (.staZpiy d) := intro rfl rfl rfl
theorem staZpi (d : Byte) : Statement (.staZpi d) := intro rfl rfl rfl
theorem styZpx (d : Byte) : Statement (.styZpx d) := intro rfl rfl rfl
theorem staZpx (d : Byte) : Statement (.staZpx d) := intro rfl rfl rfl
theorem stxZpy (d : Byte) : Statement (.stxZpy d) := intro rfl rfl rfl
theorem smb1 (d : Byte) : Statement (.smb1 d) := intro rfl rfl rfl
theorem staAbsy (al ah : Byte) : Statement (.staAbsy al ah) := intro rfl rfl rfl
theorem stzAbs (al ah : Byte) : Statement (.stzAbs al ah) := intro rfl rfl rfl
theorem staAbsx (al ah : Byte) : Statement (.staAbsx al ah) := intro rfl rfl rfl
theorem stzAbsx (al ah : Byte) : Statement (.stzAbsx al ah) := intro rfl rfl rfl
theorem bbs1 (zp rel : Byte) : Statement (.bbs1 zp rel) := intro rfl rfl rfl
theorem ldyImm (d : Byte) : Statement (.ldyImm d) := intro rfl rfl rfl
theorem ldaZpxi (d : Byte) : Statement (.ldaZpxi d) := intro rfl rfl rfl
theorem ldxImm (d : Byte) : Statement (.ldxImm d) := intro rfl rfl rfl
theorem ldyZp (d : Byte) : Statement (.ldyZp d) := intro rfl rfl rfl
theorem ldaZp (d : Byte) : Statement (.ldaZp d) := intro rfl rfl rfl
theorem ldxZp (d : Byte) : Statement (.ldxZp d) := intro rfl rfl rfl
theorem smb2 (d : Byte) : Statement (.smb2 d) := intro rfl rfl rfl
theorem ldaImm (d : Byte) : Statement (.ldaImm d) := intro rfl rfl rfl
theorem ldyAbs (al ah : Byte) : Statement (.ldyAbs al ah) := intro rfl rfl rfl
theorem ldaAbs (al ah : Byte) : Statement (.ldaAbs al ah) := intro rfl rfl rfl
theorem ldxAbs (al ah : Byte) : Statement (.ldxAbs al ah) := intro rfl rfl rfl
theorem bbs2 (zp rel : Byte) : Statement (.bbs2 zp rel) := intro rfl rfl rfl
theorem bcs (d : Byte) : Statement (.bcs d) := intro rfl rfl rfl
theorem ldaZpiy (d : Byte) : Statement (.ldaZpiy d) := intro rfl rfl rfl
theorem ldaZpi (d : Byte) : Statement (.ldaZpi d) := intro rfl rfl rfl
theorem ldyZpx (d : Byte) : Statement (.ldyZpx d) := intro rfl rfl rfl
theorem ldaZpx (d : Byte) : Statement (.ldaZpx d) := intro rfl rfl rfl
theorem ldxZpy (d : Byte) : Statement (.ldxZpy d) := intro rfl rfl rfl
theorem smb3 (d : Byte) : Statement (.smb3 d) := intro rfl rfl rfl
theorem ldaAbsy (al ah : Byte) : Statement (.ldaAbsy al ah) := intro rfl rfl rfl
theorem ldyAbsx (al ah : Byte) : Statement (.ldyAbsx al ah) := intro rfl rfl rfl
theorem ldaAbsx (al ah : Byte) : Statement (.ldaAbsx al ah) := intro rfl rfl rfl
theorem ldxAbsy (al ah : Byte) : Statement (.ldxAbsy al ah) := intro rfl rfl rfl
theorem bbs3 (zp rel : Byte) : Statement (.bbs3 zp rel) := intro rfl rfl rfl
theorem cpyImm (d : Byte) : Statement (.cpyImm d) := intro rfl rfl rfl
theorem cmpZpxi (d : Byte) : Statement (.cmpZpxi d) := intro rfl rfl rfl
theorem nopC2 (d : Byte) : Statement (.nopC2 d) := intro rfl rfl rfl
theorem cpyZp (d : Byte) : Statement (.cpyZp d) := intro rfl rfl rfl
theorem cmpZp (d : Byte) : Statement (.cmpZp d) := intro rfl rfl rfl
theorem decZp (d : Byte) : Statement (.decZp d) := intro rfl rfl rfl
theorem smb4 (d : Byte) : Statement (.smb4 d) := intro rfl rfl rfl
theorem cmpImm (d : Byte) : Statement (.cmpImm d) := intro rfl rfl rfl
theorem cpyAbs (al ah : Byte) : Statement (.cpyAbs al ah) := intro rfl rfl rfl
theorem cmpAbs (al ah : Byte) : Statement (.cmpAbs al ah) := intro rfl rfl rfl
theorem decAbs (al ah : Byte) : Statement (.decAbs al ah) := intro rfl rfl rfl
theorem bbs4 (zp rel : Byte) : Statement (.bbs4 zp rel) := intro rfl rfl rfl
theorem bne (d : Byte) : Statement (.bne d) := intro rfl rfl rfl
theorem cmpZpiy (d : Byte) : Statement (.cmpZpiy d) := intro rfl rfl rfl
theorem cmpZpi (d : Byte) : Statement (.cmpZpi d) := intro rfl rfl rfl
theorem nopD4 (d : Byte) : Statement (.nopD4 d) := intro rfl rfl rfl
theorem cmpZpx (d : Byte) : Statement (.cmpZpx d) := intro rfl rfl rfl
theorem decZpx (d : Byte) : Statement (.decZpx d) := intro rfl rfl rfl
theorem smb5 (d : Byte) : Statement (.smb5 d) := intro rfl rfl rfl
theorem cmpAbsy (al ah : Byte) : Statement (.cmpAbsy al ah) := intro rfl rfl rfl
theorem nopDC (al ah : Byte) : Statement (.nopDC al ah) := intro rfl rfl rfl
theorem cmpAbsx (al ah : Byte) : Statement (.cmpAbsx al ah) := intro rfl rfl rfl
theorem decAbsx (al ah : Byte) : Statement (.decAbsx al ah) := intro rfl rfl rfl
theorem bbs5 (zp rel : Byte) : Statement (.bbs5 zp rel) := intro rfl rfl rfl
theorem cpxImm (d : Byte) : Statement (.cpxImm d) := intro rfl rfl rfl
theorem sbcZpxi (d : Byte) : Statement (.sbcZpxi d) := intro rfl rfl rfl
theorem nopE2 (d : Byte) : Statement (.nopE2 d) := intro rfl rfl rfl
theorem cpxZp (d : Byte) : Statement (.cpxZp d) := intro rfl rfl rfl
theorem sbcZp (d : Byte) : Statement (.sbcZp d) := intro rfl rfl rfl
theorem incZp (d : Byte) : Statement (.incZp d) := intro rfl rfl rfl
theorem smb6 (d : Byte) : Statement (.smb6 d) := intro rfl rfl rfl
theorem sbcImm (d : Byte) : Statement (.sbcImm d) := intro rfl rfl rfl
theorem cpxAbs (al ah : Byte) : Statement (.cpxAbs al ah) := intro rfl rfl rfl
theorem sbcAbs (al ah : Byte) : Statement (.sbcAbs al ah) := intro rfl rfl rfl
theorem incAbs (al ah : Byte) : Statement (.incAbs al ah) := intro rfl rfl rfl
theorem bbs6 (zp rel : Byte) : Statement (.bbs6 zp rel) := intro rfl rfl rfl
theorem beq (d : Byte) : Statement (.beq d) := intro rfl rfl rfl
theorem sbcZpiy (d : Byte) : Statement (.sbcZpiy d) := intro rfl rfl rfl
theorem sbcZpi (d : Byte) : Statement (.sbcZpi d) := intro rfl rfl rfl
theorem nopF4 (d : Byte) : Statement (.nopF4 d) := intro rfl rfl rfl
theorem sbcZpx (d : Byte) : Statement (.sbcZpx d) := intro rfl rfl rfl
theorem incZpx (d : Byte) : Statement (.incZpx d) := intro rfl rfl rfl
theorem smb7 (d : Byte) : Statement (.smb7 d) := intro rfl rfl rfl
theorem sbcAbsy (al ah : Byte) : Statement (.sbcAbsy al ah) := intro rfl rfl rfl
theorem nopFC (al ah : Byte) : Statement (.nopFC al ah) := intro rfl rfl rfl
theorem sbcAbsx (al ah : Byte) : Statement (.sbcAbsx al ah) := intro rfl rfl rfl
theorem incAbsx (al ah : Byte) : Statement (.incAbsx al ah) := intro rfl rfl rfl
theorem bbs7 (zp rel : Byte) : Statement (.bbs7 zp rel) := intro rfl rfl rfl
theorem nop03 : Statement (.nop03) := intro rfl rfl rfl
theorem php : Statement (.php) := intro rfl rfl rfl
theorem aslAcc : Statement (.aslAcc) := intro rfl rfl rfl
theorem nop0B : Statement (.nop0B) := intro rfl rfl rfl
theorem nop13 : Statement (.nop13) := intro rfl rfl rfl
theorem clc : Statement (.clc) := intro rfl rfl rfl
theorem incAcc : Statement (.incAcc) := intro rfl rfl rfl
theorem nop1B : Statement (.nop1B) := intro rfl rfl rfl
theorem nop23 : Statement (.nop23) := intro rfl rfl rfl
theorem plp : Statement (.plp) := intro rfl rfl rfl
theorem rolAcc : Statement (.rolAcc) := intro rfl rfl rfl
theorem nop2B : Statement (.nop2B) := intro rfl rfl rfl
theorem nop33 : Statement (.nop33) := intro rfl rfl rfl
theorem sec : Statement (.sec) := intro rfl rfl rfl
theorem decAcc : Statement (.decAcc) := intro rfl rfl rfl
theorem nop3B : Statement (.nop3B) := intro rfl rfl rfl
theorem rti : Statement (.rti) := intro rfl rfl rfl
theorem nop43 : Statement (.nop43) := intro rfl rfl rfl
theorem pha : Statement (.pha) := intro rfl rfl rfl
theorem lsrAcc : Statement (.lsrAcc) := intro rfl rfl rfl
theorem nop4B : Statement (.nop4B) := intro rfl rfl rfl
theorem nop53 : Statement (.nop53) := intro rfl rfl rfl
theorem cli : Statement (.cli) := intro rfl rfl rfl
theorem phy : Statement (.phy) := intro rfl rfl rfl
theorem nop5B : Statement (.nop5B) := intro rfl rfl rfl
theorem rts : Statement (.rts) := intro rfl rfl rfl
theorem nop63 : Statement (.nop63) := intro rfl rfl rfl
theorem pla : Statement (.pla) := intro rfl rfl rfl
theorem rorAcc : Statement (.rorAcc) := intro rfl rfl rfl
theorem nop6B : Statement (.nop6B) := intro rfl rfl rfl
theorem nop73 : Statement (.nop73) := intro rfl rfl rfl
theorem sei : Statement (.sei) := intro rfl rfl rfl
theorem ply : Statement (.ply) := intro rfl rfl rfl
theorem nop7B : Statement (.nop7B) := intro rfl rfl rfl
theorem nop83 : Statement (.nop83) := intro rfl rfl rfl
theorem dey : Statement (.dey) := intro rfl rfl rfl
theorem txa : Statement (.txa) := intro rfl rfl rfl
theorem nop8B : Statement (.nop8B) := intro rfl rfl rfl
theorem nop93 : Statement (.nop93) := intro rfl rfl rfl
theorem tya : Statement (.tya) := intro rfl rfl rfl
theorem txs : Statement (.txs) := intro rfl rfl rfl
theorem nop9B : Statement (.nop9B) := intro rfl rfl rfl
theorem nopA3 : Statement (.nopA3) := intro rfl rfl rfl
theorem tay : Statement (.tay) := intro rfl rfl rfl
theorem tax : Statement (.tax) := intro rfl rfl rfl
theorem nopAB : Statement (.nopAB) := intro rfl rfl rfl
theorem nopB3 : Statement (.nopB3) := intro rfl rfl rfl
theorem clv : Statement (.clv) := intro rfl rfl rfl
theorem tsx : Statement (.tsx) := intro rfl rfl rfl
theorem nopBB : Statement (.nopBB) := intro rfl rfl rfl
theorem nopC3 : Statement (.nopC3) := intro rfl rfl rfl
theorem iny : Statement (.iny) := intro rfl rfl rfl
theorem dex : Statement (.dex) := intro rfl rfl rfl
theorem wai : Statement (.wai) := intro rfl rfl rfl
theorem nopD3 : Statement (.nopD3) := intro rfl rfl rfl
theorem cld : Statement (.cld) := intro rfl rfl rfl
theorem phx : Statement (.phx) := intro rfl rfl rfl
theorem stp : Statement (.stp) := intro rfl rfl rfl
theorem nopE3 : Statement (.nopE3) := intro rfl rfl rfl
theorem inx : Statement (.inx) := intro rfl rfl rfl
theorem nop : Statement (.nop) := intro rfl rfl rfl
theorem nopEB : Statement (.nopEB) := intro rfl rfl rfl
theorem nopF3 : Statement (.nopF3) := intro rfl rfl rfl
theorem sed : Statement (.sed) := intro rfl rfl rfl
theorem plx : Statement (.plx) := intro rfl rfl rfl
theorem nopFB : Statement (.nopFB) := intro rfl rfl rfl

end Sys2Proof.Laws.Length
end

