-- ==== Sys2Proof/Laws/Step.lean ====
section
/-! SUPPORT. What `step` does at a boundary, by the line of R334 that applies, the bytes it decodes under a
silent host, and the inversion of a step that goes on. -/

namespace Sys2Proof.Machine

theorem memAfter_quiet {s : State} (h : s.script = []) (n : Nat) : s.memAfter n = s.mem := by
  induction n with
  | zero => rfl
  | succ n ih => simp [State.memAfter, State.actsAt_quiet h, ih]

theorem fetchBytes_quiet {s : State} (h : s.script = []) :
    s.fetchBytes = [s.byteAt s.pc, s.byteAt (s.pc + 1), s.byteAt (s.pc + 2)] := by
  simp [State.fetchBytes, State.hostAnswer_quiet h, memAfter_quiet h, State.byteAt]

theorem step_of_stall {s : State} (hr : s.resetSeen = true ∨ s.pendReset = true) (h : 0 < s.stall) :
    step s = complete (stallCycle s) := by
  rcases hr with hr | hr <;> simp [step, choose, hr, h]

theorem step_of_reset {s : State} (h : s.stall = 0) (hp : s.pendReset = true) :
    step s = complete (resetSequence s) := by
  simp [step, choose, h, hp]

theorem step_of_stopped {s : State} (hr : s.resetSeen = true) (h : s.stall = 0) (hp : s.pendReset = false)
    (he : s.execState = .stopped) : step s = complete (stoppedCycle s) := by
  simp [step, choose, h, hp, hr, he]

theorem step_of_waiting {s : State} (hr : s.resetSeen = true) (h : s.stall = 0) (hp : s.pendReset = false)
    (he : s.execState = .waiting) : step s = complete (waitingCycle s) := by
  simp [step, choose, h, hp, hr, he]

theorem step_of_nmi {s : State} (hr : s.resetSeen = true) (h : s.stall = 0) (hp : s.pendReset = false)
    (he : s.execState = .running) (hc : s.committed = .nmi) : step s = complete (enter .nmi s) := by
  simp [step, choose, h, hp, hr, he, hc]

theorem step_of_irq {s : State} (hr : s.resetSeen = true) (h : s.stall = 0) (hp : s.pendReset = false)
    (he : s.execState = .running) (hc : s.committed = .irq) : step s = complete (enter .irq s) := by
  simp [step, choose, h, hp, hr, he, hc]

theorem step_of_instruction {s : State} (h : AtInstruction s) : step s = stepInstr s := by
  obtain ⟨hr, hst, hp, he, hc⟩ := h
  simp [step, choose, hst, hp, hr, he, hc]

theorem complete_next {a : Action} {t : State} (h : complete a = .next t) : t = a.run := by
  unfold complete at h
  injection h with h
  exact h.symm

theorem step_of_refused {s : State} (hr : s.resetSeen = false) (hp : s.pendReset = false) :
    step s = .refused .runBeforeReset := by
  simp [step, choose, hr, hp]

/-- The same choice at cycle granularity. -/
theorem step_of_nextAction {s t : State} (h : step s = .next t) : ∃ a, nextAction s = .next a ∧ t = a.run := by
  unfold step at h
  unfold nextAction
  generalize choose s = c at h ⊢
  cases c with
  | refuse => cases h
  | stall => exact ⟨_, rfl, complete_next h⟩
  | reset => exact ⟨_, rfl, complete_next h⟩
  | stopped => exact ⟨_, rfl, complete_next h⟩
  | waiting => exact ⟨_, rfl, complete_next h⟩
  | enter e => exact ⟨_, rfl, complete_next h⟩
  | instruction =>
    simp only [stepInstr] at h ⊢
    generalize decode s.fetchBytes = d at h ⊢
    cases d with
    | error e => cases h
    | ok r => exact ⟨_, rfl, complete_next ((exec_eq_cyclesOf r.1 s).symm.trans h)⟩

/-- The seven lines of R334 as what a step that goes on can have done. -/
inductive Did (s : State) : Action → Prop where
  | stall (pos : 0 < s.stall) : Did s (stallCycle s)
  | reset (pend : s.pendReset = true) : Did s (resetSequence s)
  | stopped (x : s.execState = .stopped) (pend : s.pendReset = false) : Did s (stoppedCycle s)
  | waiting (x : s.execState = .waiting) (pend : s.pendReset = false) : Did s (waitingCycle s)
  | entry (x : s.execState = .running) (pend : s.pendReset = false) (e : Entry) : Did s (enter e s)
  | instruction (x : s.execState = .running) (pend : s.pendReset = false) (c : s.committed = .none) (i : Instr)
      (rest : List Byte) (d : decode s.fetchBytes = .ok (i, rest)) : Did s (cyclesOf i s)

theorem nextAction_of_stall {s : State} (hr : s.resetSeen = true ∨ s.pendReset = true) (h : 0 < s.stall) :
    nextAction s = .next (stallCycle s) := by
  rcases hr with hr | hr <;> simp [nextAction, choose, hr, h]

/-- The inversion of the choice: the action begun, and that a RESET has run or is pending. -/
theorem nextAction_next {s : State} {a : Action} (h : nextAction s = .next a) :
    (s.resetSeen = true ∨ s.pendReset = true) ∧ Did s a := by
  by_cases hr : s.resetSeen = true ∨ s.pendReset = true
  · refine ⟨hr, ?_⟩
    by_cases hs : 0 < s.stall
    · rw [nextAction_of_stall hr hs] at h
      injection h with h
      exact h ▸ .stall hs
    · have hz : s.stall = 0 := by omega
      cases hp : s.pendReset with
      | true =>
        have e : choose s = .reset := by simp [choose, hz, hp]
        simp only [nextAction, e] at h
        injection h with h
        exact h ▸ .reset hp
      | false =>
        have hr : s.resetSeen = true := by simpa [hp] using hr
        cases he : s.execState with
        | stopped =>
          have e : choose s = .stopped := by simp [choose, hz, hp, hr, he]
          simp only [nextAction, e] at h
          injection h with h
          exact h ▸ .stopped he hp
        | waiting =>
          have e : choose s = .waiting := by simp [choose, hz, hp, hr, he]
          simp only [nextAction, e] at h
          injection h with h
          exact h ▸ .waiting he hp
        | running =>
          cases hc : s.committed with
          | nmi =>
            have e : choose s = .enter .nmi := by simp [choose, hz, hp, hr, he, hc]
            simp only [nextAction, e] at h
            injection h with h
            exact h ▸ .entry he hp .nmi
          | irq =>
            have e : choose s = .enter .irq := by simp [choose, hz, hp, hr, he, hc]
            simp only [nextAction, e] at h
            injection h with h
            exact h ▸ .entry he hp .irq
          | none =>
            have e : choose s = .instruction := by simp [choose, hz, hp, hr, he, hc]
            simp only [nextAction, e] at h
            cases hd : decode s.fetchBytes with
            | error e => rw [hd] at h; cases h
            | ok r =>
              rw [hd] at h
              injection h with h
              exact h ▸ .instruction he hp hc r.1 r.2 hd
  · have hn : s.resetSeen = false ∧ s.pendReset = false := by simpa using hr
    simp [nextAction, choose, hn.1, hn.2] at h

/-- The inversion of a step: the action it performed. -/
theorem step_next {s t : State} (h : step s = .next t) :
    (s.resetSeen = true ∨ s.pendReset = true) ∧ ∃ a, nextAction s = .next a ∧ Did s a ∧ t = a.run := by
  obtain ⟨a, ha, e⟩ := step_of_nextAction h
  exact ⟨(nextAction_next ha).1, a, ha, (nextAction_next ha).2, e⟩

/-- The state after the one idle cycle of a stall, stopped or waiting cycle. -/
def State.idled (s : State) : State := (s.begin 0).access (.read s.pc)

theorem went_idled (s : State) : Went s 1 s.idled :=
  Went.access (s := s.begin 0) ((Went.refl s).touch rfl) rfl

theorem idled_committed (s : State) : s.idled.committed = s.committed := State.access_committed _ _

theorem run_stallCycle (s : State) : (stallCycle s).run = (s.idled.setStall (s.idled.stall - 1)).discard := rfl

theorem run_stoppedCycle (s : State) : (stoppedCycle s).run = s.idled.discard := rfl

theorem run_waitingCycle (s : State) :
    (waitingCycle s).run =
      if s.idled.wakes then ((s.idled.setExec .running).sample).discard else s.idled.discard := rfl

theorem idled_quiet {s : State} (h : s.script = []) : s.idled = (s.begin 0).tally (.read s.pc) :=
  State.access_quiet (s := s.begin 0) h _

/-- From the state before the end point to what a step says. -/
theorem steps_recorded {s e : State} {a : Action} {calls : List HostCall} {n : Nat} {co : Commit} {c : Ctx}
    (hs : step s = complete a)
    (hr : a.run = (e.recorded e.pc (calls.reverse ++ s.trace) (s.cycleCount + n) co c).endOfInstruction)
    (he : e.script = []) (hh : e.hooks = s.hooks) (hk : e.instrCount = s.instrCount) :
    Steps s (calls ++ s.eoiCalls) n 1 co e := by
  refine ⟨_, hs, ?_⟩
  rw [hr, endOfInstruction_quiet (s := e.recorded e.pc (calls.reverse ++ s.trace) (s.cycleCount + n) co c) he]
  unfold State.eoiCalls
  rw [show (e.recorded e.pc (calls.reverse ++ s.trace) (s.cycleCount + n) co c).hooks = s.hooks from hh]
  cases s.hooks.eoi
  · refine ⟨rfl, ?_, rfl, ?_, rfl, rfl⟩
    · simp [State.recorded, State.retire, State.discard]
    · simp [State.recorded, State.retire, hk]
  · refine ⟨rfl, ?_, rfl, ?_, rfl, rfl⟩
    · simp [State.recorded, State.retire, State.discard]
    · simp [State.recorded, State.retire, hk]

end Sys2Proof.Machine
end

