-- ==== Sys2Proof/Tests/Slice0.lean ====
section
/-! SUPPORT. Tests of one step or one word each, with results taken from the spec (30_encoding.md rule R93,
95_test_vectors.md), and a witness for every statement that has hypotheses. -/

namespace Sys2Proof.Tests

open Sys2Proof.Machine

/-- The bytes are exactly the instruction, alone and before another byte. -/
def reads (bytes : List Byte) (i : Instr) : Bool :=
  decide (decode bytes = .ok (i, [])) && decide (decode (bytes ++ [0xFF]) = .ok (i, [0xFF])) && decide (encode i = bytes)

/-- The start state of 95_test_vectors.md section 1: code at `pc`, the rest zero, `S = $FF`. -/
def boot (pc : Word) (code : List Byte) : State :=
  { State.powerOn with resetSeen := true, sp := 0xFF, pc := pc, mem := storeBytes [] pc code }

/-- Bytes placed in memory. -/
def put (a : Word) (bs : List Byte) (s : State) : State := s.setMem (storeBytes s.mem a bs)

/-- The state after one step. -/
def after (s : State) : State :=
  match step s with
  | .next t => t
  | _ => s

/-- One step counts `k` instructions, makes exactly these accesses, one per cycle, commits `c` and leaves `e`. -/
def gives (s : State) (calls : List HostCall) (k : Nat) (c : Commit) (e : State) : Bool :=
  match step s with
  | .next t => decide (t = { e with
      trace := calls.reverse ++ s.trace, instrCount := s.instrCount + k, committed := c, ctx := Ctx.idle
      cycleCount := s.cycleCount + (calls.filter HostCall.isAccess).length })
  | _ => false

/-- Stepping the same action cycle by cycle reaches the same state. -/
def sameByCycles (s : State) : Bool :=
  match tickN ((after s).cycleCount - s.cycleCount) (.done s) with
  | .next (.done t) => decide (t = after s)
  | _ => false

/-! ## Well-formedness: each check refuses an ill-formed term (R90, R91) -/

theorem test_wf_no_bytes : wellFormedBytes [] = false ∧ decode [] = .error .noOpcode := by decide
theorem test_wf_missing_operand : wellFormedBytes [0xA9] = false ∧ wellFormedBytes [0xBD, 0x00] = false ∧
    decode [0xBD, 0x00] = .error (.missingOperand 0xBD) := by decide
theorem test_wf_extra_operand : wellFormedBytes [0xEA, 0x00] = false ∧ wellFormedBytes [0x03, 0x00] = false := by decide
theorem test_wf_whole_instruction : wellFormedBytes [0x5C, 0x34, 0x12] = true ∧ (Instr.nop5C 0x34 0x12).wellFormed = true := by
  decide

/-! ## Decoding: every word of the matrix, written out from R93 -/

theorem test_decode_row_0 :
    reads [0x00, 0x34] (.brk 0x34) && reads [0x01, 0x34] (.oraZpxi 0x34) && reads [0x02, 0x34] (.nop02 0x34) &&
    reads [0x03] .nop03 && reads [0x04, 0x34] (.tsbZp 0x34) && reads [0x05, 0x34] (.oraZp 0x34) &&
    reads [0x06, 0x34] (.aslZp 0x34) && reads [0x07, 0x34] (.rmb0 0x34) && reads [0x08] .php &&
    reads [0x09, 0x34] (.oraImm 0x34) && reads [0x0A] .aslAcc && reads [0x0B] .nop0B &&
    reads [0x0C, 0x34, 0x12] (.tsbAbs 0x34 0x12) && reads [0x0D, 0x34, 0x12] (.oraAbs 0x34 0x12) && reads [0x0E, 0x34, 0x12] (.aslAbs 0x34 0x12) &&
    reads [0x0F, 0x34, 0x12] (.bbr0 0x34 0x12) = true := by decide

theorem test_decode_row_1 :
    reads [0x10, 0x34] (.bpl 0x34) && reads [0x11, 0x34] (.oraZpiy 0x34) && reads [0x12, 0x34] (.oraZpi 0x34) &&
    reads [0x13] .nop13 && reads [0x14, 0x34] (.trbZp 0x34) && reads [0x15, 0x34] (.oraZpx 0x34) &&
    reads [0x16, 0x34] (.aslZpx 0x34) && reads [0x17, 0x34] (.rmb1 0x34) && reads [0x18] .clc &&
    reads [0x19, 0x34, 0x12] (.oraAbsy 0x34 0x12) && reads [0x1A] .incAcc && reads [0x1B] .nop1B &&
    reads [0x1C, 0x34, 0x12] (.trbAbs 0x34 0x12) && reads [0x1D, 0x34, 0x12] (.oraAbsx 0x34 0x12) && reads [0x1E, 0x34, 0x12] (.aslAbsx 0x34 0x12) &&
    reads [0x1F, 0x34, 0x12] (.bbr1 0x34 0x12) = true := by decide

theorem test_decode_row_2 :
    reads [0x20, 0x34, 0x12] (.jsr 0x34 0x12) && reads [0x21, 0x34] (.andZpxi 0x34) && reads [0x22, 0x34] (.nop22 0x34) &&
    reads [0x23] .nop23 && reads [0x24, 0x34] (.bitZp 0x34) && reads [0x25, 0x34] (.andZp 0x34) &&
    reads [0x26, 0x34] (.rolZp 0x34) && reads [0x27, 0x34] (.rmb2 0x34) && reads [0x28] .plp &&
    reads [0x29, 0x34] (.andImm 0x34) && reads [0x2A] .rolAcc && reads [0x2B] .nop2B &&
    reads [0x2C, 0x34, 0x12] (.bitAbs 0x34 0x12) && reads [0x2D, 0x34, 0x12] (.andAbs 0x34 0x12) && reads [0x2E, 0x34, 0x12] (.rolAbs 0x34 0x12) &&
    reads [0x2F, 0x34, 0x12] (.bbr2 0x34 0x12) = true := by decide

theorem test_decode_row_3 :
    reads [0x30, 0x34] (.bmi 0x34) && reads [0x31, 0x34] (.andZpiy 0x34) && reads [0x32, 0x34] (.andZpi 0x34) &&
    reads [0x33] .nop33 && reads [0x34, 0x34] (.bitZpx 0x34) && reads [0x35, 0x34] (.andZpx 0x34) &&
    reads [0x36, 0x34] (.rolZpx 0x34) && reads [0x37, 0x34] (.rmb3 0x34) && reads [0x38] .sec &&
    reads [0x39, 0x34, 0x12] (.andAbsy 0x34 0x12) && reads [0x3A] .decAcc && reads [0x3B] .nop3B &&
    reads [0x3C, 0x34, 0x12] (.bitAbsx 0x34 0x12) && reads [0x3D, 0x34, 0x12] (.andAbsx 0x34 0x12) && reads [0x3E, 0x34, 0x12] (.rolAbsx 0x34 0x12) &&
    reads [0x3F, 0x34, 0x12] (.bbr3 0x34 0x12) = true := by decide

theorem test_decode_row_4 :
    reads [0x40] .rti && reads [0x41, 0x34] (.eorZpxi 0x34) && reads [0x42, 0x34] (.nop42 0x34) &&
    reads [0x43] .nop43 && reads [0x44, 0x34] (.nop44 0x34) && reads [0x45, 0x34] (.eorZp 0x34) &&
    reads [0x46, 0x34] (.lsrZp 0x34) && reads [0x47, 0x34] (.rmb4 0x34) && reads [0x48] .pha &&
    reads [0x49, 0x34] (.eorImm 0x34) && reads [0x4A] .lsrAcc && reads [0x4B] .nop4B &&
    reads [0x4C, 0x34, 0x12] (.jmpAbs 0x34 0x12) && reads [0x4D, 0x34, 0x12] (.eorAbs 0x34 0x12) && reads [0x4E, 0x34, 0x12] (.lsrAbs 0x34 0x12) &&
    reads [0x4F, 0x34, 0x12] (.bbr4 0x34 0x12) = true := by decide

theorem test_decode_row_5 :
    reads [0x50, 0x34] (.bvc 0x34) && reads [0x51, 0x34] (.eorZpiy 0x34) && reads [0x52, 0x34] (.eorZpi 0x34) &&
    reads [0x53] .nop53 && reads [0x54, 0x34] (.nop54 0x34) && reads [0x55, 0x34] (.eorZpx 0x34) &&
    reads [0x56, 0x34] (.lsrZpx 0x34) && reads [0x57, 0x34] (.rmb5 0x34) && reads [0x58] .cli &&
    reads [0x59, 0x34, 0x12] (.eorAbsy 0x34 0x12) && reads [0x5A] .phy && reads [0x5B] .nop5B &&
    reads [0x5C, 0x34, 0x12] (.nop5C 0x34 0x12) && reads [0x5D, 0x34, 0x12] (.eorAbsx 0x34 0x12) && reads [0x5E, 0x34, 0x12] (.lsrAbsx 0x34 0x12) &&
    reads [0x5F, 0x34, 0x12] (.bbr5 0x34 0x12) = true := by decide

theorem test_decode_row_6 :
    reads [0x60] .rts && reads [0x61, 0x34] (.adcZpxi 0x34) && reads [0x62, 0x34] (.nop62 0x34) &&
    reads [0x63] .nop63 && reads [0x64, 0x34] (.stzZp 0x34) && reads [0x65, 0x34] (.adcZp 0x34) &&
    reads [0x66, 0x34] (.rorZp 0x34) && reads [0x67, 0x34] (.rmb6 0x34) && reads [0x68] .pla &&
    reads [0x69, 0x34] (.adcImm 0x34) && reads [0x6A] .rorAcc && reads [0x6B] .nop6B &&
    reads [0x6C, 0x34, 0x12] (.jmpAbsi 0x34 0x12) && reads [0x6D, 0x34, 0x12] (.adcAbs 0x34 0x12) && reads [0x6E, 0x34, 0x12] (.rorAbs 0x34 0x12) &&
    reads [0x6F, 0x34, 0x12] (.bbr6 0x34 0x12) = true := by decide

theorem test_decode_row_7 :
    reads [0x70, 0x34] (.bvs 0x34) && reads [0x71, 0x34] (.adcZpiy 0x34) && reads [0x72, 0x34] (.adcZpi 0x34) &&
    reads [0x73] .nop73 && reads [0x74, 0x34] (.stzZpx 0x34) && reads [0x75, 0x34] (.adcZpx 0x34) &&
    reads [0x76, 0x34] (.rorZpx 0x34) && reads [0x77, 0x34] (.rmb7 0x34) && reads [0x78] .sei &&
    reads [0x79, 0x34, 0x12] (.adcAbsy 0x34 0x12) && reads [0x7A] .ply && reads [0x7B] .nop7B &&
    reads [0x7C, 0x34, 0x12] (.jmpAbsxi 0x34 0x12) && reads [0x7D, 0x34, 0x12] (.adcAbsx 0x34 0x12) && reads [0x7E, 0x34, 0x12] (.rorAbsx 0x34 0x12) &&
    reads [0x7F, 0x34, 0x12] (.bbr7 0x34 0x12) = true := by decide

theorem test_decode_row_8 :
    reads [0x80, 0x34] (.bra 0x34) && reads [0x81, 0x34] (.staZpxi 0x34) && reads [0x82, 0x34] (.nop82 0x34) &&
    reads [0x83] .nop83 && reads [0x84, 0x34] (.styZp 0x34) && reads [0x85, 0x34] (.staZp 0x34) &&
    reads [0x86, 0x34] (.stxZp 0x34) && reads [0x87, 0x34] (.smb0 0x34) && reads [0x88] .dey &&
    reads [0x89, 0x34] (.bitImm 0x34) && reads [0x8A] .txa && reads [0x8B] .nop8B &&
    reads [0x8C, 0x34, 0x12] (.styAbs 0x34 0x12) && reads [0x8D, 0x34, 0x12] (.staAbs 0x34 0x12) && reads [0x8E, 0x34, 0x12] (.stxAbs 0x34 0x12) &&
    reads [0x8F, 0x34, 0x12] (.bbs0 0x34 0x12) = true := by decide

theorem test_decode_row_9 :
    reads [0x90, 0x34] (.bcc 0x34) && reads [0x91, 0x34] (.staZpiy 0x34) && reads [0x92, 0x34] (.staZpi 0x34) &&
    reads [0x93] .nop93 && reads [0x94, 0x34] (.styZpx 0x34) && reads [0x95, 0x34] (.staZpx 0x34) &&
    reads [0x96, 0x34] (.stxZpy 0x34) && reads [0x97, 0x34] (.smb1 0x34) && reads [0x98] .tya &&
    reads [0x99, 0x34, 0x12] (.staAbsy 0x34 0x12) && reads [0x9A] .txs && reads [0x9B] .nop9B &&
    reads [0x9C, 0x34, 0x12] (.stzAbs 0x34 0x12) && reads [0x9D, 0x34, 0x12] (.staAbsx 0x34 0x12) && reads [0x9E, 0x34, 0x12] (.stzAbsx 0x34 0x12) &&
    reads [0x9F, 0x34, 0x12] (.bbs1 0x34 0x12) = true := by decide

theorem test_decode_row_A :
    reads [0xA0, 0x34] (.ldyImm 0x34) && reads [0xA1, 0x34] (.ldaZpxi 0x34) && reads [0xA2, 0x34] (.ldxImm 0x34) &&
    reads [0xA3] .nopA3 && reads [0xA4, 0x34] (.ldyZp 0x34) && reads [0xA5, 0x34] (.ldaZp 0x34) &&
    reads [0xA6, 0x34] (.ldxZp 0x34) && reads [0xA7, 0x34] (.smb2 0x34) && reads [0xA8] .tay &&
    reads [0xA9, 0x34] (.ldaImm 0x34) && reads [0xAA] .tax && reads [0xAB] .nopAB &&
    reads [0xAC, 0x34, 0x12] (.ldyAbs 0x34 0x12) && reads [0xAD, 0x34, 0x12] (.ldaAbs 0x34 0x12) && reads [0xAE, 0x34, 0x12] (.ldxAbs 0x34 0x12) &&
    reads [0xAF, 0x34, 0x12] (.bbs2 0x34 0x12) = true := by decide

theorem test_decode_row_B :
    reads [0xB0, 0x34] (.bcs 0x34) && reads [0xB1, 0x34] (.ldaZpiy 0x34) && reads [0xB2, 0x34] (.ldaZpi 0x34) &&
    reads [0xB3] .nopB3 && reads [0xB4, 0x34] (.ldyZpx 0x34) && reads [0xB5, 0x34] (.ldaZpx 0x34) &&
    reads [0xB6, 0x34] (.ldxZpy 0x34) && reads [0xB7, 0x34] (.smb3 0x34) && reads [0xB8] .clv &&
    reads [0xB9, 0x34, 0x12] (.ldaAbsy 0x34 0x12) && reads [0xBA] .tsx && reads [0xBB] .nopBB &&
    reads [0xBC, 0x34, 0x12] (.ldyAbsx 0x34 0x12) && reads [0xBD, 0x34, 0x12] (.ldaAbsx 0x34 0x12) && reads [0xBE, 0x34, 0x12] (.ldxAbsy 0x34 0x12) &&
    reads [0xBF, 0x34, 0x12] (.bbs3 0x34 0x12) = true := by decide

theorem test_decode_row_C :
    reads [0xC0, 0x34] (.cpyImm 0x34) && reads [0xC1, 0x34] (.cmpZpxi 0x34) && reads [0xC2, 0x34] (.nopC2 0x34) &&
    reads [0xC3] .nopC3 && reads [0xC4, 0x34] (.cpyZp 0x34) && reads [0xC5, 0x34] (.cmpZp 0x34) &&
    reads [0xC6, 0x34] (.decZp 0x34) && reads [0xC7, 0x34] (.smb4 0x34) && reads [0xC8] .iny &&
    reads [0xC9, 0x34] (.cmpImm 0x34) && reads [0xCA] .dex && reads [0xCB] .wai &&
    reads [0xCC, 0x34, 0x12] (.cpyAbs 0x34 0x12) && reads [0xCD, 0x34, 0x12] (.cmpAbs 0x34 0x12) && reads [0xCE, 0x34, 0x12] (.decAbs 0x34 0x12) &&
    reads [0xCF, 0x34, 0x12] (.bbs4 0x34 0x12) = true := by decide

theorem test_decode_row_D :
    reads [0xD0, 0x34] (.bne 0x34) && reads [0xD1, 0x34] (.cmpZpiy 0x34) && reads [0xD2, 0x34] (.cmpZpi 0x34) &&
    reads [0xD3] .nopD3 && reads [0xD4, 0x34] (.nopD4 0x34) && reads [0xD5, 0x34] (.cmpZpx 0x34) &&
    reads [0xD6, 0x34] (.decZpx 0x34) && reads [0xD7, 0x34] (.smb5 0x34) && reads [0xD8] .cld &&
    reads [0xD9, 0x34, 0x12] (.cmpAbsy 0x34 0x12) && reads [0xDA] .phx && reads [0xDB] .stp &&
    reads [0xDC, 0x34, 0x12] (.nopDC 0x34 0x12) && reads [0xDD, 0x34, 0x12] (.cmpAbsx 0x34 0x12) && reads [0xDE, 0x34, 0x12] (.decAbsx 0x34 0x12) &&
    reads [0xDF, 0x34, 0x12] (.bbs5 0x34 0x12) = true := by decide

theorem test_decode_row_E :
    reads [0xE0, 0x34] (.cpxImm 0x34) && reads [0xE1, 0x34] (.sbcZpxi 0x34) && reads [0xE2, 0x34] (.nopE2 0x34) &&
    reads [0xE3] .nopE3 && reads [0xE4, 0x34] (.cpxZp 0x34) && reads [0xE5, 0x34] (.sbcZp 0x34) &&
    reads [0xE6, 0x34] (.incZp 0x34) && reads [0xE7, 0x34] (.smb6 0x34) && reads [0xE8] .inx &&
    reads [0xE9, 0x34] (.sbcImm 0x34) && reads [0xEA] .nop && reads [0xEB] .nopEB &&
    reads [0xEC, 0x34, 0x12] (.cpxAbs 0x34 0x12) && reads [0xED, 0x34, 0x12] (.sbcAbs 0x34 0x12) && reads [0xEE, 0x34, 0x12] (.incAbs 0x34 0x12) &&
    reads [0xEF, 0x34, 0x12] (.bbs6 0x34 0x12) = true := by decide

theorem test_decode_row_F :
    reads [0xF0, 0x34] (.beq 0x34) && reads [0xF1, 0x34] (.sbcZpiy 0x34) && reads [0xF2, 0x34] (.sbcZpi 0x34) &&
    reads [0xF3] .nopF3 && reads [0xF4, 0x34] (.nopF4 0x34) && reads [0xF5, 0x34] (.sbcZpx 0x34) &&
    reads [0xF6, 0x34] (.incZpx 0x34) && reads [0xF7, 0x34] (.smb7 0x34) && reads [0xF8] .sed &&
    reads [0xF9, 0x34, 0x12] (.sbcAbsy 0x34 0x12) && reads [0xFA] .plx && reads [0xFB] .nopFB &&
    reads [0xFC, 0x34, 0x12] (.nopFC 0x34 0x12) && reads [0xFD, 0x34, 0x12] (.sbcAbsx 0x34 0x12) && reads [0xFE, 0x34, 0x12] (.incAbsx 0x34 0x12) &&
    reads [0xFF, 0x34, 0x12] (.bbs7 0x34 0x12) = true := by decide

/-- Table words: bit 0 is the lowest bit of the first byte; what the table gives no bits is zero. -/
theorem test_table_words : decodeTableWord 16 0x42A9 = some (.ldaImm 0x42) ∧ decodeTableWord 8 0xBD = some (.ldaAbsx 0 0) ∧
    decodeTableWord 24 0x12346C = some (.jmpAbsi 0x34 0x12) := by decide

theorem test_fetch_word_runs : (after (State.reset.withFetchWord 16 0x42A9)).a = 0x42 := by decide

/-! ## Instructions: the vectors of 95_test_vectors.md sections 2 and 3 -/

theorem test_S3 :
    let s := boot 0x0200 [0xA9, 0x42]
    let e := { s with a := 0x42, pc := 0x0202, p := { s.p with n := false, z := false } }
    gives s [.read 0x0200, .read 0x0201] 1 .none e = true := by decide
theorem test_S4a :
    let s := boot 0x0200 [0xBD, 0xFF, 0x12]
    let s := { s with x := 0x01 }
    let s := put 0x1300 [0x77] s
    let e := { s with a := 0x77, pc := 0x0203 }
    gives s [.read 0x0200, .read 0x0201, .read 0x0202, .read 0x1200, .read 0x1300] 1 .none e = true := by decide
theorem test_S4b :
    let s := boot 0x0200 [0xBD, 0xFF, 0x12]
    let s := { s with x := 0x00 }
    let s := put 0x12FF [0x77] s
    let e := { s with a := 0x77, pc := 0x0203 }
    gives s [.read 0x0200, .read 0x0201, .read 0x0202, .read 0x12FF] 1 .none e = true := by decide
theorem test_S5a :
    let s := boot 0x0200 [0xF0, 0x10]
    let s := { s with p := { s.p with z := false } }
    let e := { s with pc := 0x0202 }
    gives s [.read 0x0200, .read 0x0201] 1 .none e = true := by decide
theorem test_S5c :
    let s := boot 0x02F0 [0xF0, 0x10]
    let s := { s with p := { s.p with z := true } }
    let e := { s with pc := 0x0302 }
    gives s [.read 0x02F0, .read 0x02F1, .read 0x02F2, .read 0x0202] 1 .none e = true := by decide
theorem test_A1 :
    let s := boot 0x0200 [0xB5, 0xF0]
    let s := { s with x := 0x20 }
    let s := put 0x0010 [0xAA] s
    let e := { s with a := 0xAA, pc := 0x0202, p := { s.p with n := true } }
    gives s [.read 0x0200, .read 0x0201, .read 0x0201, .read 0x0010] 1 .none e = true := by decide
theorem test_A2 :
    let s := boot 0x0200 [0xB6, 0xFF]
    let s := { s with y := 0x02 }
    let s := put 0x0001 [0x55] s
    let e := { s with x := 0x55, pc := 0x0202 }
    gives s [.read 0x0200, .read 0x0201, .read 0x0201, .read 0x0001] 1 .none e = true := by decide
theorem test_A3 :
    let s := boot 0x0200 [0xA1, 0xFE]
    let s := { s with x := 0x01 }
    let s := put 0x0000 [0x12] s
    let s := put 0x00FF [0x34] s
    let s := put 0x1234 [0x99] s
    let e := { s with a := 0x99, pc := 0x0202, p := { s.p with n := true } }
    gives s [.read 0x0200, .read 0x0201, .read 0x0201, .read 0x00FF, .read 0x0000, .read 0x1234] 1 .none e = true := by decide
theorem test_A4 :
    let s := boot 0x0200 [0xB1, 0x10]
    let s := { s with y := 0x01 }
    let s := put 0x0010 [0xFF, 0x12] s
    let s := put 0x1300 [0x66] s
    let e := { s with a := 0x66, pc := 0x0202 }
    gives s [.read 0x0200, .read 0x0201, .read 0x0010, .read 0x0011, .read 0x1200, .read 0x1300] 1 .none e = true := by decide
theorem test_A6 :
    let s := boot 0x0200 [0xB2, 0xFF]
    let s := put 0x0000 [0x80] s
    let s := put 0x00FF [0x00] s
    let s := put 0x8000 [0x01] s
    let e := { s with a := 0x01, pc := 0x0202 }
    gives s [.read 0x0200, .read 0x0201, .read 0x00FF, .read 0x0000, .read 0x8000] 1 .none e = true := by decide
theorem test_A7 :
    let s := boot 0x0200 [0xB9, 0xFF, 0xFF]
    let s := { s with y := 0x01 }
    let s := put 0x0000 [0x42] s
    let e := { s with a := 0x42, pc := 0x0203 }
    gives s [.read 0x0200, .read 0x0201, .read 0x0202, .read 0xFF00, .read 0x0000] 1 .none e = true := by decide
theorem test_A8 :
    let s := boot 0x0200 [0x91, 0x10]
    let s := { s with a := 0x5A, y := 0x01 }
    let s := put 0x0010 [0x00, 0x30] s
    let e := { s with pc := 0x0202 }
    let e := put 0x3001 [0x5A] e
    gives s [.read 0x0200, .read 0x0201, .read 0x0010, .read 0x0011, .read 0x3001, .write 0x3001 0x5A] 1 .none e = true := by decide
theorem test_A10 :
    let s := boot 0x0200 [0x6C, 0xFF, 0x12]
    let s := put 0x12FF [0x34, 0x56] s
    let e := { s with pc := 0x5634 }
    gives s [.read 0x0200, .read 0x0201, .read 0x0202, .read 0x0202, .read 0x12FF, .read 0x1300] 1 .none e = true := by decide
theorem test_A11 :
    let s := boot 0x0200 [0x7C, 0xFF, 0x30]
    let s := { s with x := 0x01 }
    let s := put 0x3100 [0x00, 0x90] s
    let e := { s with pc := 0x9000 }
    gives s [.read 0x0200, .read 0x0201, .read 0x0202, .read 0x0202, .read 0x3100, .read 0x3101] 1 .none e = true := by decide
theorem test_A13 :
    let s := boot 0x0200 [0xA5, 0x10]
    let s := { s with a := 0x55 }
    let s := put 0x0010 [0x00] s
    let e := { s with a := 0x00, pc := 0x0202, p := { s.p with z := true } }
    gives s [.read 0x0200, .read 0x0201, .read 0x0010] 1 .none e = true := by decide
theorem test_A14 :
    let s := boot 0xFFFF [0xA9, 0x01]
    let e := { s with a := 0x01, pc := 0x0001 }
    gives s [.read 0xFFFF, .read 0x0000] 1 .none e = true := by decide
theorem test_L4 :
    let s := boot 0x0200 [0xBC, 0x00, 0x40]
    let s := { s with x := 0x05 }
    let s := put 0x4005 [0xFF] s
    let e := { s with y := 0xFF, pc := 0x0203, p := { s.p with n := true } }
    gives s [.read 0x0200, .read 0x0201, .read 0x0202, .read 0x4005] 1 .none e = true := by decide
theorem test_L6 :
    let s := boot 0x0200 [0x95, 0xFF]
    let s := { s with a := 0xAB, x := 0x02 }
    let e := { s with pc := 0x0202 }
    let e := put 0x0001 [0xAB] e
    gives s [.read 0x0200, .read 0x0201, .read 0x0201, .write 0x0001 0xAB] 1 .none e = true := by decide
theorem test_L9 :
    let s := boot 0x0200 [0x81, 0x20]
    let s := { s with a := 0x11, x := 0x04 }
    let s := put 0x0024 [0x00, 0x60] s
    let e := { s with pc := 0x0202 }
    let e := put 0x6000 [0x11] e
    gives s [.read 0x0200, .read 0x0201, .read 0x0201, .read 0x0024, .read 0x0025, .write 0x6000 0x11] 1 .none e = true := by decide
theorem test_L11 :
    let s := boot 0x0200 [0x96, 0x10]
    let s := { s with x := 0x77, y := 0x01 }
    let e := { s with pc := 0x0202 }
    let e := put 0x0011 [0x77] e
    gives s [.read 0x0200, .read 0x0201, .read 0x0201, .write 0x0011 0x77] 1 .none e = true := by decide
theorem test_L14 :
    let s := boot 0x0200 [0x9E, 0x00, 0x30]
    let s := { s with x := 0xFF }
    let s := put 0x30FF [0xEE] s
    let e := { s with pc := 0x0203 }
    let e := put 0x30FF [0x00] e
    gives s [.read 0x0200, .read 0x0201, .read 0x0202, .read 0x30FF, .write 0x30FF 0x00] 1 .none e = true := by decide
theorem test_B7 :
    let s := boot 0x0200 [0x69, 0x7F]
    let s := { s with a := 0x7F, p := { s.p with c := true } }
    let e := { s with a := 0xFF, pc := 0x0202, p := { s.p with n := true, v := true, c := false } }
    gives s [.read 0x0200, .read 0x0201] 1 .none e = true := by decide
theorem test_B20 :
    let s := boot 0x0200 [0x69, 0x92]
    let s := { s with a := 0x81, p := { s.p with d := true, c := false } }
    let e := { s with a := 0x73, pc := 0x0202, p := { s.p with v := true, c := true } }
    gives s [.read 0x0200, .read 0x0201, .read 0x0201] 1 .none e = true := by decide
theorem test_B13 :
    let s := boot 0x0200 [0xE9, 0xFF]
    let s := { s with a := 0x7F, p := { s.p with c := true } }
    let e := { s with a := 0x80, pc := 0x0202, p := { s.p with n := true, v := true, c := false } }
    gives s [.read 0x0200, .read 0x0201] 1 .none e = true := by decide
theorem test_B28 :
    let s := boot 0x0200 [0xE9, 0x21]
    let s := { s with a := 0x12, p := { s.p with d := true, c := true } }
    let e := { s with a := 0x91, pc := 0x0202, p := { s.p with n := true, c := false } }
    gives s [.read 0x0200, .read 0x0201, .read 0x0201] 1 .none e = true := by decide
theorem test_B31 :
    let s := boot 0x0200 [0x7D, 0xFF, 0x12]
    let s := { s with a := 0x01, x := 0x01, p := { s.p with d := true } }
    let s := put 0x1300 [0x09] s
    let e := { s with a := 0x10, pc := 0x0203 }
    gives s [.read 0x0200, .read 0x0201, .read 0x0202, .read 0x1200, .read 0x1300, .read 0x1300] 1 .none e = true := by decide
theorem test_B32 :
    let s := boot 0x0200 [0x29, 0x3C]
    let s := { s with a := 0xF0 }
    let e := { s with a := 0x30, pc := 0x0202 }
    gives s [.read 0x0200, .read 0x0201] 1 .none e = true := by decide
theorem test_B34 :
    let s := boot 0x0200 [0x09, 0x80]
    let s := { s with a := 0x0F }
    let e := { s with a := 0x8F, pc := 0x0202, p := { s.p with n := true } }
    gives s [.read 0x0200, .read 0x0201] 1 .none e = true := by decide
theorem test_B35 :
    let s := boot 0x0200 [0x49, 0xFF]
    let s := { s with a := 0xFF }
    let e := { s with a := 0x00, pc := 0x0202, p := { s.p with z := true } }
    gives s [.read 0x0200, .read 0x0201] 1 .none e = true := by decide
theorem test_B40 :
    let s := boot 0x0200 [0xC9, 0x01]
    let s := { s with a := 0x00, p := { s.p with v := true, d := true } }
    let e := { s with pc := 0x0202, p := { s.p with n := true } }
    gives s [.read 0x0200, .read 0x0201] 1 .none e = true := by decide
theorem test_B42 :
    let s := boot 0x0200 [0xE4, 0x10]
    let s := { s with x := 0x0F }
    let s := put 0x0010 [0x10] s
    let e := { s with pc := 0x0202, p := { s.p with n := true } }
    gives s [.read 0x0200, .read 0x0201, .read 0x0010] 1 .none e = true := by decide
theorem test_B44 :
    let s := boot 0x0200 [0xCC, 0x00, 0x30]
    let s := { s with y := 0xFF }
    let s := put 0x3000 [0x7F] s
    let e := { s with pc := 0x0203, p := { s.p with n := true, c := true } }
    gives s [.read 0x0200, .read 0x0201, .read 0x0202, .read 0x3000] 1 .none e = true := by decide
theorem test_B45 :
    let s := boot 0x0200 [0x24, 0x10]
    let s := { s with a := 0x01 }
    let s := put 0x0010 [0xC0] s
    let e := { s with pc := 0x0202, p := { s.p with n := true, v := true, z := true } }
    gives s [.read 0x0200, .read 0x0201, .read 0x0010] 1 .none e = true := by decide
theorem test_B47 :
    let s := boot 0x0200 [0x89, 0x01]
    let s := { s with a := 0x01, p := { s.p with n := true, v := true, z := true } }
    let e := { s with pc := 0x0202, p := { s.p with z := false } }
    gives s [.read 0x0200, .read 0x0201] 1 .none e = true := by decide
theorem test_M1 :
    let s := boot 0x0200 [0x0A]
    let s := { s with a := 0x81 }
    let e := { s with a := 0x02, pc := 0x0201, p := { s.p with c := true } }
    gives s [.read 0x0200, .read 0x0201] 1 .none e = true := by decide
theorem test_M5 :
    let s := boot 0x0200 [0x46, 0x10]
    let s := put 0x0010 [0x03] s
    let e := { s with pc := 0x0202, p := { s.p with c := true } }
    let e := put 0x0010 [0x01] e
    gives s [.read 0x0200, .read 0x0201, .read 0x0010, .write 0x0010 0x03, .write 0x0010 0x01] 1 .none e = true := by decide
theorem test_M7 :
    let s := boot 0x0200 [0x2E, 0x00, 0x30]
    let s := { s with p := { s.p with c := false } }
    let s := put 0x3000 [0x80] s
    let e := { s with pc := 0x0203, p := { s.p with z := true, c := true } }
    let e := put 0x3000 [0x00] e
    gives s [.read 0x0200, .read 0x0201, .read 0x0202, .read 0x3000, .write 0x3000 0x80, .write 0x3000 0x00] 1 .none e = true := by decide
theorem test_M9 :
    let s := boot 0x0200 [0x76, 0x10]
    let s := { s with x := 0x05, p := { s.p with c := false } }
    let s := put 0x0015 [0x01] s
    let e := { s with pc := 0x0202, p := { s.p with z := true, c := true } }
    let e := put 0x0015 [0x00] e
    gives s [.read 0x0200, .read 0x0201, .read 0x0201, .read 0x0015, .write 0x0015 0x01, .write 0x0015 0x00] 1 .none e = true := by decide
theorem test_M11 :
    let s := boot 0x0200 [0x1E, 0xFF, 0x20]
    let s := { s with x := 0x01 }
    let s := put 0x2100 [0x01] s
    let e := { s with pc := 0x0203 }
    let e := put 0x2100 [0x02] e
    gives s [.read 0x0200, .read 0x0201, .read 0x0202, .read 0x2000, .read 0x2100, .write 0x2100 0x01, .write 0x2100 0x02] 1 .none e = true := by decide
theorem test_M12 :
    let s := boot 0x0200 [0xFE, 0x00, 0x20]
    let s := { s with x := 0x01 }
    let s := put 0x2001 [0xFF] s
    let e := { s with pc := 0x0203, p := { s.p with z := true } }
    let e := put 0x2001 [0x00] e
    gives s [.read 0x0200, .read 0x0201, .read 0x0202, .read 0x2001, .read 0x2001, .write 0x2001 0xFF, .write 0x2001 0x00] 1 .none e = true := by decide
theorem test_M13 :
    let s := boot 0x0200 [0xDE, 0xFF, 0x20]
    let s := { s with x := 0x01 }
    let s := put 0x2100 [0x00] s
    let e := { s with pc := 0x0203, p := { s.p with n := true } }
    let e := put 0x2100 [0xFF] e
    gives s [.read 0x0200, .read 0x0201, .read 0x0202, .read 0x2000, .read 0x2100, .write 0x2100 0x00, .write 0x2100 0xFF] 1 .none e = true := by decide
theorem test_M16 :
    let s := boot 0x0200 [0x1A]
    let s := { s with a := 0xFF, p := { s.p with c := false } }
    let e := { s with a := 0x00, pc := 0x0201, p := { s.p with z := true } }
    gives s [.read 0x0200, .read 0x0201] 1 .none e = true := by decide
theorem test_M18 :
    let s := boot 0x0200 [0xE8]
    let s := { s with x := 0x7F }
    let e := { s with x := 0x80, pc := 0x0201, p := { s.p with n := true } }
    gives s [.read 0x0200, .read 0x0201] 1 .none e = true := by decide
theorem test_M21 :
    let s := boot 0x0200 [0x88]
    let s := { s with y := 0x00 }
    let e := { s with y := 0xFF, pc := 0x0201, p := { s.p with n := true } }
    gives s [.read 0x0200, .read 0x0201] 1 .none e = true := by decide
theorem test_M22 :
    let s := boot 0x0200 [0x04, 0x10]
    let s := { s with a := 0x0F }
    let s := put 0x0010 [0xF0] s
    let e := { s with pc := 0x0202, p := { s.p with z := true } }
    let e := put 0x0010 [0xFF] e
    gives s [.read 0x0200, .read 0x0201, .read 0x0010, .write 0x0010 0xF0, .write 0x0010 0xFF] 1 .none e = true := by decide
theorem test_M25 :
    let s := boot 0x0200 [0x1C, 0x00, 0x30]
    let s := { s with a := 0xF0, p := { s.p with z := false } }
    let s := put 0x3000 [0x0F] s
    let e := { s with pc := 0x0203, p := { s.p with z := true } }
    gives s [.read 0x0200, .read 0x0201, .read 0x0202, .read 0x3000, .write 0x3000 0x0F, .write 0x3000 0x0F] 1 .none e = true := by decide
theorem test_M26 :
    let s := boot 0x0200 [0x37, 0x10]
    let s := { s with p := { s.p with n := true, z := true } }
    let s := put 0x0010 [0xFF] s
    let e := { s with pc := 0x0202 }
    let e := put 0x0010 [0xF7] e
    gives s [.read 0x0200, .read 0x0201, .read 0x0010, .write 0x0010 0xFF, .write 0x0010 0xF7] 1 .none e = true := by decide
theorem test_M27 :
    let s := boot 0x0200 [0xF7, 0x10]
    let s := put 0x0010 [0x00] s
    let e := { s with pc := 0x0202 }
    let e := put 0x0010 [0x80] e
    gives s [.read 0x0200, .read 0x0201, .read 0x0010, .write 0x0010 0x00, .write 0x0010 0x80] 1 .none e = true := by decide
theorem test_K2 :
    let s := boot 0x0200 [0x5A]
    let s := { s with y := 0xFE, sp := 0x00 }
    let e := { s with sp := 0xFF, pc := 0x0201 }
    let e := put 0x0100 [0xFE] e
    gives s [.read 0x0200, .read 0x0201, .write 0x0100 0xFE] 1 .none e = true := by decide
theorem test_K3 :
    let s := boot 0x0200 [0x08]
    let s := { s with p := { s.p with n := true, c := true } }
    let e := { s with sp := 0xFE, pc := 0x0201 }
    let e := put 0x01FF [0xB1] e
    gives s [.read 0x0200, .read 0x0201, .write 0x01FF 0xB1] 1 .none e = true := by decide
theorem test_K5 :
    let s := boot 0x0200 [0x68]
    let s := { s with a := 0x55, sp := 0xFE }
    let s := put 0x01FF [0x00] s
    let e := { s with a := 0x00, sp := 0xFF, pc := 0x0201, p := { s.p with z := true } }
    gives s [.read 0x0200, .read 0x0201, .read 0x01FE, .read 0x01FF] 1 .none e = true := by decide
theorem test_K7 :
    let s := boot 0x0200 [0x28]
    let s := { s with sp := 0xFE }
    let s := put 0x01FF [0xC3] s
    let e := { s with sp := 0xFF, pc := 0x0201, p := { s.p with n := true, v := true, z := true, c := true } }
    gives s [.read 0x0200, .read 0x0201, .read 0x01FE, .read 0x01FF] 1 .none e = true := by decide
theorem test_K12 :
    let s := boot 0x0200 [0x8A]
    let s := { s with a := 0xFF, x := 0x7F, p := { s.p with n := true } }
    let e := { s with a := 0x7F, pc := 0x0201, p := { s.p with n := false } }
    gives s [.read 0x0200, .read 0x0201] 1 .none e = true := by decide
theorem test_K13 :
    let s := boot 0x0200 [0xBA]
    let s := { s with sp := 0xFD }
    let e := { s with x := 0xFD, pc := 0x0201, p := { s.p with n := true } }
    gives s [.read 0x0200, .read 0x0201] 1 .none e = true := by decide
theorem test_K14 :
    let s := boot 0x0200 [0x9A]
    let s := { s with x := 0x00, sp := 0xFF, p := { s.p with n := true, z := false } }
    let e := { s with sp := 0x00, pc := 0x0201 }
    gives s [.read 0x0200, .read 0x0201] 1 .none e = true := by decide
theorem test_K15 :
    let s := boot 0x0200 [0x18]
    let s := { s with p := { s.p with c := true } }
    let e := { s with pc := 0x0201, p := { s.p with c := false } }
    gives s [.read 0x0200, .read 0x0201] 1 .none e = true := by decide
theorem test_K17 :
    let s := boot 0x0200 [0x58]
    let s := { s with p := { s.p with i := true } }
    let e := { s with pc := 0x0201, p := { s.p with i := false } }
    gives s [.read 0x0200, .read 0x0201] 1 .none e = true := by decide
theorem test_K20 :
    let s := boot 0x0200 [0xF8]
    let e := { s with pc := 0x0201, p := { s.p with d := true } }
    gives s [.read 0x0200, .read 0x0201] 1 .none e = true := by decide
theorem test_K21 :
    let s := boot 0x0200 [0xB8]
    let s := { s with p := { s.p with v := true } }
    let e := { s with pc := 0x0201, p := { s.p with v := false } }
    gives s [.read 0x0200, .read 0x0201] 1 .none e = true := by decide
theorem test_T1 :
    let s := boot 0x0200 [0x4C, 0x00, 0x80]
    let e := { s with pc := 0x8000 }
    gives s [.read 0x0200, .read 0x0201, .read 0x0202] 1 .none e = true := by decide
theorem test_T2 :
    let s := boot 0x0200 [0x20, 0x00, 0x30]
    let e := { s with sp := 0xFD, pc := 0x3000 }
    let e := put 0x01FE [0x02, 0x02] e
    gives s [.read 0x0200, .read 0x0201, .read 0x01FF, .write 0x01FF 0x02, .write 0x01FE 0x02, .read 0x0202] 1 .none e = true := by decide
theorem test_T5 :
    let s := boot 0x02FE [0x20, 0x34, 0x12]
    let s := { s with sp := 0x01 }
    let e := { s with sp := 0xFF, pc := 0x1234 }
    let e := put 0x0100 [0x00, 0x03] e
    gives s [.read 0x02FE, .read 0x02FF, .read 0x0101, .write 0x0101 0x03, .write 0x0100 0x00, .read 0x0300] 1 .none e = true := by decide
theorem test_T4 :
    let s := boot 0x3000 [0x60]
    let s := { s with sp := 0xFD }
    let s := put 0x01FE [0xFF, 0xFF] s
    let e := { s with sp := 0xFF, pc := 0x0000 }
    gives s [.read 0x3000, .read 0x3001, .read 0x01FD, .read 0x01FE, .read 0x01FF, .read 0xFFFF] 1 .none e = true := by decide
theorem test_T7 :
    let s := boot 0x0200 [0x00, 0xEA]
    let s := { s with p := { s.p with n := true, d := true, c := true } }
    let s := put 0xFFFE [0x00, 0x90] s
    let e := { s with sp := 0xFC, pc := 0x9000, p := { s.p with d := false, i := true } }
    let e := put 0x01FD [0xB9, 0x02, 0x02] e
    gives s [.read 0x0200, .read 0x0201, .write 0x01FF 0x02, .write 0x01FE 0x02, .write 0x01FD 0xB9, .read 0xFFFE, .read 0xFFFF] 1 .none e = true := by decide
theorem test_T8 :
    let s := boot 0x9000 [0x40]
    let s := { s with sp := 0xFC, p := { s.p with i := true } }
    let s := put 0x01FD [0x21, 0x34, 0x12] s
    let e := { s with sp := 0xFF, pc := 0x1234, p := { s.p with i := false, c := true } }
    gives s [.read 0x9000, .read 0x9001, .read 0x01FC, .read 0x01FD, .read 0x01FE, .read 0x01FF] 1 .none e = true := by decide
theorem test_T10 :
    let s := boot 0x0200 [0x10, 0x05]
    let e := { s with pc := 0x0207 }
    gives s [.read 0x0200, .read 0x0201, .read 0x0202] 1 .none e = true := by decide
theorem test_T13 :
    let s := boot 0x02F0 [0x70, 0x10]
    let s := { s with p := { s.p with v := true } }
    let e := { s with pc := 0x0302 }
    gives s [.read 0x02F0, .read 0x02F1, .read 0x02F2, .read 0x0202] 1 .none e = true := by decide
theorem test_T15 :
    let s := boot 0x0200 [0xB0, 0x80]
    let s := { s with p := { s.p with c := true } }
    let e := { s with pc := 0x0182 }
    gives s [.read 0x0200, .read 0x0201, .read 0x0202, .read 0x0282] 1 .none e = true := by decide
theorem test_T18 :
    let s := boot 0xFFF0 [0x80, 0x7F]
    let e := { s with pc := 0x0071 }
    gives s [.read 0xFFF0, .read 0xFFF1, .read 0xFFF2, .read 0xFF71] 1 .none e = true := by decide
theorem test_T19 :
    let s := boot 0x0200 [0x3F, 0x10, 0x05]
    let s := put 0x0010 [0xF7] s
    let e := { s with pc := 0x0208 }
    gives s [.read 0x0200, .read 0x0201, .read 0x0010, .read 0x0010, .read 0x0202, .read 0x0203] 1 .none e = true := by decide
theorem test_T22 :
    let s := boot 0x02F0 [0x8F, 0x10, 0x7F]
    let s := put 0x0010 [0x01] s
    let e := { s with pc := 0x0372 }
    gives s [.read 0x02F0, .read 0x02F1, .read 0x0010, .read 0x0010, .read 0x02F2, .read 0x02F3, .read 0x0272] 1 .none e = true := by decide
theorem test_Y1 :
    let s := boot 0x0200 [0xEA]
    let e := { s with pc := 0x0201 }
    gives s [.read 0x0200, .read 0x0201] 1 .none e = true := by decide
theorem test_Y2 :
    let s := boot 0x0200 [0x03]
    let e := { s with pc := 0x0201 }
    gives s [.read 0x0200] 1 .none e = true := by decide
theorem test_Y3 :
    let s := boot 0x0200 [0x02, 0xFF]
    let e := { s with pc := 0x0202 }
    gives s [.read 0x0200, .read 0x0201] 1 .none e = true := by decide
theorem test_Y5 :
    let s := boot 0x0200 [0x54, 0x10]
    let s := { s with x := 0x02 }
    let e := { s with pc := 0x0202 }
    gives s [.read 0x0200, .read 0x0201, .read 0x0201, .read 0x0012] 1 .none e = true := by decide
theorem test_Y7 :
    let s := boot 0x0200 [0x5C, 0x34, 0x12]
    let e := { s with pc := 0x0203 }
    gives s [.read 0x0200, .read 0x0201, .read 0x0202, .read 0xFF34, .read 0xFFFF, .read 0xFFFF, .read 0xFFFF, .read 0xFFFF] 1 .none e = true := by decide
theorem test_Y8 :
    let s := boot 0x0200 [0xCB]
    let e := { s with pc := 0x0201, execState := .waiting }
    gives s [.read 0x0200, .read 0x0201, .read 0x0201] 1 .none e = true := by decide
theorem test_Y9 :
    let s := boot 0x0200 [0xCB]
    let s := { s with p := { s.p with i := false }, irqLine := true }
    let e := { s with pc := 0x0201 }
    gives s [.read 0x0200, .read 0x0201, .read 0x0201] 1 .irq e = true := by decide
theorem test_Y11 :
    let s := boot 0x0200 [0xDB]
    let e := { s with pc := 0x0201, execState := .stopped }
    gives s [.read 0x0200, .read 0x0201, .read 0x0201] 1 .none e = true := by decide

/-! ## Interrupts, wait states, hooks and the host: section 4 of 95_test_vectors.md, one step each -/

/-- The memory of the scenarios: the three vectors, the program at $0200. -/
def scene (code : List Byte) : State :=
  put 0xFFFA [0x00, 0x80, 0x00, 0x02, 0x00, 0x90] (boot 0x0200 code)

/-- I1 step 5: entry of an IRQ pushes B = 0 and the flags as they were. -/
theorem test_I1_enter_irq :
    let s := { scene [0xEA] with committed := .irq, irqLine := true, pc := 0x0204 }
    let e := { s with pc := 0x9000, sp := 0xFC, p := { s.p with i := true } }
    gives s [.read 0x0204, .read 0x0204, .write 0x01FF 0x02, .write 0x01FE 0x04, .write 0x01FD 0x20, .read 0xFFFE,
      .read 0xFFFF] 1 .none (put 0x01FD [0x20, 0x04, 0x02] e) = true := by decide

/-- I5: with both asserted the sample commits the NMI. -/
theorem test_I5_nmi_first :
    let s := { scene [0xEA] with irqLine := true, pendNmi := true }
    gives s [.read 0x0200, .read 0x0201] 1 .nmi { s with pc := 0x0201 } = true := by decide

/-- I7: a one-cycle opcode does not sample. -/
theorem test_I7_one_cycle_does_not_sample :
    let s := { scene [0x03] with irqLine := true }
    gives s [.read 0x0200] 1 .none { s with pc := 0x0201 } = true := by decide

/-- I4: `RTI` samples with the restored `I`. -/
theorem test_I4_rti_samples_restored_mask :
    let s := { scene [0x40] with irqLine := true, sp := 0xFC, p := { n := false, v := false, d := false, i := true, z := false, c := false } }
    let s := put 0x01FD [0x20, 0x34, 0x12] s
    (after s).committed = .irq ∧ (after s).pc = 0x1234 := by decide

/-- I12: a masked IRQ ends the wait and is not entered. -/
theorem test_I12_masked_irq_ends_wait :
    let s := { scene [0xEA] with execState := .waiting, irqLine := true, p := { n := false, v := false, d := false, i := true, z := false, c := false } }
    gives s [.read 0x0200] 0 .none { s with execState := .running } = true := by decide

/-- I14: RESET leaves STOPPED. -/
theorem test_I14_reset_from_stopped :
    let s := { scene [0xEA] with execState := .stopped, pendReset := true, pendNmi := true, irqLine := true }
    let e := { s with
      execState := .running, pendReset := false, pendNmi := false, irqLine := false, sp := 0xFC, pc := 0x0200
      p := { s.p with i := true } }
    gives s [.read 0x0200, .read 0x0200, .read 0x01FF, .read 0x01FE, .read 0x01FD, .read 0xFFFC, .read 0xFFFD] 1 .none e =
      true := by decide

/-- I16: a stall cycle reads `PC` and counts no instruction. -/
theorem test_I16_stall_cycle :
    let s := (scene [0xEA]).requestStall 3
    gives s [.read 0x0200] 0 .none (s.setStall 2) = true := by decide

/-- I17: the hook makes `BRK` a two-cycle NOP. -/
theorem test_I17_brk_suppressed :
    let s := { scene [0x00, 0x07] with hooks := { brk := true, stp := false, eoi := false }, script := [(.cycle 2, .suppress)] }
    gives s [.read 0x0200, .read 0x0201, .brkHook 0x07] 1 .none { s with pc := 0x0202 } = true := by decide

/-- I18: the hook makes `STP` a three-cycle NOP. -/
theorem test_I18_stp_suppressed :
    let s := { scene [0xDB] with hooks := { brk := false, stp := true, eoi := false }, script := [(.cycle 3, .suppress)] }
    gives s [.read 0x0200, .read 0x0201, .read 0x0201, .stpHook] 1 .none { s with pc := 0x0201 } = true := by decide

/-- H1 and H2: an IRQ raised in cycle 3 of `LDA abs` is committed by it, one raised in cycle 4 is not. -/
theorem test_H1_H2_last_cycle_is_too_late :
    (after { scene [0xAD, 0x34, 0x12] with script := [(.cycle 3, .assertIrq)] }).committed = .irq ∧
    (after { scene [0xAD, 0x34, 0x12] with script := [(.cycle 4, .assertIrq)] }).committed = .none := by decide

/-- H3: an untaken branch samples at the end of cycle 1, a taken one before its last cycle. -/
theorem test_H3_branch_sample :
    (after { scene [0xB0, 0x10] with script := [(.cycle 2, .assertIrq)] }).committed = .none ∧
    (after { scene [0x90, 0x10] with script := [(.cycle 2, .assertIrq)] }).committed = .irq := by decide

/-- R63: a byte the host answers is used whatever memory holds. -/
theorem test_host_answers_reads :
    (after { scene [0xAD, 0x34, 0x12] with script := [(.cycle 4, .answer 0x77)] }).a = 0x77 := by decide

/-- S1: status round trip at the two ends. -/
theorem test_S1_status_round_trip : ((scene []).setStatus 0xCF).getStatus = 0xFF ∧ ((scene []).setStatus 0x10).getStatus = 0x30 := by
  decide

/-- R37, R400: cycle stepping agrees on a read-modify-write that crosses a page. -/
theorem test_cycle_stepping : sameByCycles (put 0x2100 [0x01] { boot 0x0200 [0x1E, 0xFF, 0x20] with x := 1 }) = true := by decide

/-- D8: with `BCD_INVALID = draw` the result on a nibble above 9 is the free value, and V is still binary. -/
theorem test_free_decimal_result :
    let s := { boot 0x0200 [0x69, 0x01] with
      a := 0x0F, p := { n := false, v := true, d := true, i := false, z := false, c := false }
      params := { rmwDummy := .writeOld, bcdInvalid := .draw } }
    (after s).a = Config.freeByte 0 ∧ (after s).draws = 1 ∧ (after s).p.v = false := ⟨rfl, rfl, rfl⟩

/-! ## Witnesses: states that meet the hypotheses of the statements, together and clause by clause -/

/-- A state that is not the reset state: registers, flags and memory all set, an instruction at `PC`. -/
def demo : State :=
  put 0x0010 [0x34, 0x12] { scene [0xA9, 0x42] with
    a := 0x12, x := 0x01, y := 0xFE, sp := 0x01
    p := { n := true, v := false, d := false, i := true, z := false, c := true } }

theorem demo_quiet : Quiet demo := rfl
theorem demo_wf : demo.mem.wf = true := by decide
theorem demo_at_instruction : AtInstruction demo := ⟨rfl, rfl, rfl, rfl, rfl⟩
theorem demo_no_stall_or_reset : NoStallOrReset demo := ⟨rfl, rfl, rfl⟩

theorem test_witness_ResetSequenceEffect :
    let s := { demo with pendReset := true, execState := .stopped, committed := .irq }
    Quiet s ∧ s.stall = 0 ∧ s.pendReset = true := ⟨rfl, rfl, rfl⟩

theorem test_witness_StepRunsTheInstructionAtPc :
    AtInstruction demo ∧ Quiet demo ∧ BytesAtPc demo (encode (.ldaImm 0x42)) := by
  refine ⟨demo_at_instruction, rfl, ?_⟩
  unfold BytesAtPc
  decide

/-- The instruction straddles the top of the address space. -/
theorem test_witness_StepRunsTheInstructionAtPc_wrap :
    AtInstruction (boot 0xFFFE [0xBD, 0xFF, 0x12]) ∧ BytesAtPc (boot 0xFFFE [0xBD, 0xFF, 0x12]) (encode (.ldaAbsx 0xFF 0x12)) := by
  refine ⟨⟨rfl, rfl, rfl, rfl, rfl⟩, ?_⟩
  unfold BytesAtPc
  decide

theorem test_witness_RunBeforeResetIsRefused : State.powerOn.resetSeen = false ∧ State.powerOn.pendReset = false := ⟨rfl, rfl⟩

theorem test_witness_StallCycleEffect :
    (∀ s ∈ [demo.requestStall 1, State.powerOn.requestReset.requestStall 2],
      s.script = [] ∧ (s.resetSeen = true ∨ s.pendReset = true) ∧ 0 < s.stall) := by decide

theorem test_witness_StoppedCycleEffect (r : Bool) :
    let s := { demo with execState := .stopped, pendReset := r }
    Quiet s ∧ s.resetSeen = true ∧ s.stall = 0 ∧ s.execState = .stopped ∧ s.pendReset = r := ⟨rfl, rfl, rfl, rfl, rfl⟩

/-- All three clauses; the third with the IRQ masked (`demo`) and unmasked. -/
theorem test_witness_WaitingCycleEffect (nmi irq i : Bool) :
    let s := { demo with execState := .waiting, pendNmi := nmi, irqLine := irq, p := { demo.p with i := i } }
    Quiet s ∧ NoStallOrReset s ∧ s.execState = .waiting ∧ s.committed = .none ∧ s.pendNmi = nmi ∧ s.irqLine = irq :=
  ⟨rfl, ⟨rfl, rfl, rfl⟩, rfl, rfl, rfl, rfl⟩

/-- Both clauses, the stack pointer wrapping within page 1. -/
theorem test_witness_InterruptEntryEffect (c : Commit) :
    let s := { demo with committed := c, sp := 0x01 }
    Quiet s ∧ NoStallOrReset s ∧ s.execState = .running ∧ s.mem.wf = true ∧ s.committed = c :=
  ⟨rfl, ⟨rfl, rfl, rfl⟩, rfl, demo_wf, rfl⟩

theorem test_witness_StepKeepsInvariant : Inv demo ∧ ∃ t, step demo = .next t :=
  ⟨⟨demo_wf, rfl, by decide⟩, ⟨_, rfl⟩⟩

/-- An interrupt is committed and entered. -/
theorem test_witness_StepKeepsInvariant_entry :
    Inv { demo with committed := .nmi } ∧ ∃ t, step { demo with committed := .nmi } = .next t :=
  ⟨⟨demo_wf, rfl, by decide⟩, ⟨_, rfl⟩⟩

theorem test_witness_CyclesAreBusAccesses : ∃ t, step { demo with hooks := { brk := true, stp := true, eoi := true } } = .next t :=
  ⟨_, rfl⟩

theorem test_witness_StepAlwaysGoesOn :
    (demo.resetSeen = true ∨ demo.pendReset = true) ∧
    (State.powerOn.requestReset.resetSeen = true ∨ State.powerOn.requestReset.pendReset = true) := ⟨.inl rfl, .inr rfl⟩

/-- Each clause: `WAI` enters WAITING, `STP` enters STOPPED, RESET leaves STOPPED. -/
theorem test_witness_ExecutionStateTransitions :
    (after (boot 0x0200 [0xCB])).execState = .waiting ∧ (after (boot 0x0200 [0xDB])).execState = .stopped ∧
    (after { demo with execState := .stopped, pendReset := true }).execState = .running := by decide

theorem test_witness_CycleSteppingReachesTheStep : ∃ t, step demo = .next t ∧ 0 < t.cycleCount - demo.cycleCount :=
  ⟨after demo, rfl, by decide⟩

/-- The budget ends inside the instruction; and a budget of nothing. -/
theorem test_witness_CycleBudgetsAdd :
    (∃ b, ticks 1 (.done demo) = .next b ∧ b.state.breakReq = false) ∧
    (∃ b, ticks 0 (.done demo) = .next b ∧ b.state.breakReq = false) := ⟨⟨_, rfl, rfl⟩, ⟨_, rfl, rfl⟩⟩

theorem test_witness_MemoryReadsWhatWasWritten :
    demo.mem.wf = true ∧ Memory.wf [] = true ∧ Memory.wf [(0, 0x00), (0xFFFF, 0xFE)] = true ∧
    Memory.wf [(0, 0xFF)] = false ∧ Memory.wf [(0x10000, 0x00)] = false ∧ Memory.wf [(5, 0x00), (5, 0x01)] = false := by decide

/-- The digits at both ends of their range. -/
theorem test_witness_DecimalAddIsDecimalAddition :
    (0 ≤ 9 ∧ 9 ≤ 9) ∧ addDec (bcd 9 9) (bcd 9 9) true = (bcd 9 9, true) ∧ addDec (bcd 0 0) (bcd 0 0) false = (0, false) := by
  decide

theorem test_witness_DecimalSubtractIsDecimalSubtraction :
    (0 ≤ 9 ∧ 9 ≤ 9) ∧ subDec (bcd 0 0) (bcd 9 9) false = bcd 0 0 ∧ subDec (bcd 9 9) (bcd 0 0) true = bcd 9 9 := by decide

/-! The result statements of single instructions assume a silent host, and canonical memory where they store. -/

theorem test_witness_LdaLoadsA : Quiet demo := demo_quiet
theorem test_witness_LdxLdyLoadIndexRegisters : Quiet demo := demo_quiet
theorem test_witness_AdcAddsWithCarry : Quiet demo := demo_quiet
theorem test_witness_SbcSubtractsWithCarry : Quiet demo := demo_quiet
theorem test_witness_LogicOperationsOnA : Quiet demo := demo_quiet
theorem test_witness_ComparesSetNzc : Quiet demo := demo_quiet
theorem test_witness_BitTestsFlags : Quiet demo := demo_quiet
theorem test_witness_IncDecIndexRegisters : Quiet demo := demo_quiet
theorem test_witness_PullsIncrementThenRead : Quiet demo := demo_quiet
theorem test_witness_PlpRestoresStatus : Quiet demo := demo_quiet
theorem test_witness_TransfersCopyRegisters : Quiet demo := demo_quiet
theorem test_witness_FlagInstructionsSetOneFlag : Quiet demo := demo_quiet
theorem test_witness_JumpsLoadPc : Quiet demo := demo_quiet
theorem test_witness_RtsReturnsPastThePulledAddress : Quiet demo := demo_quiet
theorem test_witness_RtiRestoresStatusAndPc : Quiet demo := demo_quiet
theorem test_witness_BranchesFollowTheirFlag : Quiet demo := demo_quiet
theorem test_witness_BitBranchesTestOneBit : Quiet demo := demo_quiet
theorem test_witness_NopAndReservedOpcodesOnlyAdvance : Quiet demo := demo_quiet
theorem test_witness_StpStopsTheCore : Quiet demo := demo_quiet
theorem test_witness_StaStoresA : Quiet demo ∧ demo.mem.wf = true := ⟨demo_quiet, demo_wf⟩
theorem test_witness_StxStyStzStore : Quiet demo ∧ demo.mem.wf = true := ⟨demo_quiet, demo_wf⟩
theorem test_witness_ShiftsAslLsr : Quiet demo ∧ demo.mem.wf = true := ⟨demo_quiet, demo_wf⟩
theorem test_witness_RotatesRolRor : Quiet demo ∧ demo.mem.wf = true := ⟨demo_quiet, demo_wf⟩
theorem test_witness_IncDecMemoryAndA : Quiet demo ∧ demo.mem.wf = true := ⟨demo_quiet, demo_wf⟩
theorem test_witness_TsbTrbTestAndModify : Quiet demo ∧ demo.mem.wf = true := ⟨demo_quiet, demo_wf⟩
theorem test_witness_RmbSmbChangeOneBit : Quiet demo ∧ demo.mem.wf = true := ⟨demo_quiet, demo_wf⟩
theorem test_witness_PushesStoreThenDecrement : Quiet demo ∧ demo.mem.wf = true := ⟨demo_quiet, demo_wf⟩
theorem test_witness_JsrPushesReturnAddress : Quiet demo ∧ demo.mem.wf = true := ⟨demo_quiet, demo_wf⟩
theorem test_witness_BrkTakesTheSoftwareInterrupt : Quiet demo ∧ demo.mem.wf = true := ⟨demo_quiet, demo_wf⟩

/-- The three clauses of the statements of `ADC` and `SBC`. -/
theorem test_witness_AdcSbc_clauses :
    let s := { demo with p := { demo.p with d := true }, params := { rmwDummy := .read, bcdInvalid := .draw } }
    demo.p.d = false ∧ Quiet s ∧ s.p.d = true ∧ s.bcdOpen 0x0A = true ∧ s.bcdOpen 0x99 = false :=
  ⟨rfl, rfl, rfl, by decide, by decide⟩

/-- Taken and untaken, with and without a page crossing. -/
theorem test_witness_BranchesFollowTheirFlag_clauses :
    demo.p.n = true ∧ demo.p.z = false ∧ hi8 (offsetTarget 0x0202 0x7F) = 0x02 ∧ hi8 (offsetTarget 0x0202 0xFD) = 0x01 := by
  decide

/-- Each reason to stay awake alone, and none. -/
theorem test_witness_WaiWaitsUnlessARequestIsUnmasked (reset nmi irq i : Bool) :
    let s := { demo with pendReset := reset, pendNmi := nmi, irqLine := irq, p := { demo.p with i := i } }
    Quiet s ∧ s.committed = .none ∧ s.execState = .running := ⟨rfl, rfl, rfl⟩

theorem test_witness_InstructionSampleCommits : Quiet { demo with pendNmi := true, irqLine := true } := rfl

theorem test_witness_CliLetsOneMoreInstructionRun :
    let s := { put 0x0200 [0x58, 0xEA] demo with irqLine := true }
    AtInstruction s ∧ Quiet s ∧ s.irqLine = true ∧ s.p.i = true ∧ s.pendNmi = false ∧ BytesAtPc s [0x58] ∧
      isOneCycle .nop = false ∧ Instr.nop ≠ .rti ∧ Instr.nop ≠ .stp ∧
      BytesAtPc { s with pc := s.pc + 1 } (encode .nop) := by
  refine ⟨⟨rfl, rfl, rfl, rfl, rfl⟩, rfl, rfl, rfl, rfl, ?_, by decide, by decide, by decide, ?_⟩ <;>
    unfold BytesAtPc <;> decide

/-- `u` is the state right after the entry; `S = $01`, so the three bytes wrap within page 1. -/
theorem test_witness_ReturnResumesTheInterruptedProgram :
    let s := { demo with committed := .irq, irqLine := true }
    let t := after s
    let u := after s
    Quiet s ∧ NoStallOrReset s ∧ s.execState = .running ∧ s.committed ≠ .none ∧ s.mem.wf = true ∧ step s = .next t ∧
      Quiet u ∧ u.sp = t.sp ∧ ∀ n : Byte, n ∈ [1, 2, 3] → u.byteAt (t.stackAbove n) = t.byteAt (t.stackAbove n) :=
  ⟨rfl, ⟨rfl, rfl, rfl⟩, rfl, by decide, demo_wf, rfl, rfl, rfl, fun _ _ => rfl⟩

theorem test_witness_HooksSuppressBrkAndStp_brk :
    let s := { demo with hooks := { brk := true, stp := false, eoi := true }, script := [(.cycle 2, .suppress)] }
    s.hooks.brk = true ∧ s.script = [(.cycle (s.cycleCount + 2), .suppress)] := ⟨rfl, rfl⟩

theorem test_witness_HooksSuppressBrkAndStp_stp :
    let s := { demo with hooks := { brk := false, stp := true, eoi := true }, script := [(.cycle 3, .suppress)] }
    s.hooks.stp = true ∧ s.script = [(.cycle (s.cycleCount + 3), .suppress)] := ⟨rfl, rfl⟩

/-- The first cycle, the last that is in time, and the last one of all. -/
theorem test_witness_RequestInTheLastCycleIsSampledLater : ∀ k ∈ [1, 5, 6],
    let s := { demo with script := [(.cycle k, .assertNmi)] }
    s.committed = .none ∧ s.pendNmi = false ∧ s.irqLine = false ∧ 1 ≤ k ∧ k ≤ 6 ∧ s.mem.wf = true ∧
      s.params.rmwDummy = .writeOld ∧ s.script = [(.cycle (s.cycleCount + k), .assertNmi)] := by decide

theorem test_witness_RequestInTheLastCycleIsSampledLater_answer :
    let s := { demo with script := [(.cycle 4, .answer 0x77)] }
    s.committed = .none ∧ s.mem.wf = true ∧ s.script = [(.cycle (s.cycleCount + 4), .answer 0x77)] :=
  ⟨rfl, demo_wf, rfl⟩

theorem test_witness_HostEventsAndSetters :
    demo.stall = 0 ∧ demo.ctx.active = false ∧ (demo.begin 0xA9).ctx.active = true := ⟨rfl, rfl, rfl⟩

/-! ## Between cycles, and run calls -/

/-- The state and whether cycles remain (R408), `State.powerOn` where the call was refused. -/
def shows (r : FineResult) : State × Bool :=
  match r with
  | .next a => (a.state, a.active)
  | _ => (State.powerOn, false)

/-- R221, R77: the increment of `S` is part of the pull's own cycle. -/
theorem test_pla_between_cycles :
    let s := put 0x01FE [0x42] { scene [0x68] with sp := 0xFD }
    (shows (runForCyclesFine 3 (.done s))).1.sp = 0xFD ∧ (shows (runForCyclesFine 4 (.done s))).1.sp = 0xFE := by decide

/-- R139: both pulls in their own cycles, `PC` as pulled before cycle 6, one more after it. -/
theorem test_rts_between_cycles :
    let s := put 0x01FE [0x34, 0x12] { scene [0x60] with sp := 0xFD }
    let f := fun n => let t := (shows (runForCyclesFine n (.done s))).1; (t.sp, t.pc)
    f 3 = (0xFD, 0x0201) ∧ f 4 = (0xFE, 0x0201) ∧ f 5 = (0xFF, 0x1234) ∧ f 6 = (0xFF, 0x1235) := by decide

/-- R265: `P` is restored in cycle 4, `PC` in cycle 6. -/
theorem test_rti_between_cycles :
    let s := put 0x01FD [0x01, 0x34, 0x12] { scene [0x40] with sp := 0xFC }
    let f := fun n => let t := (shows (runForCyclesFine n (.done s))).1; (t.sp, t.p.c, t.pc)
    f 3 = (0xFC, false, 0x0201) ∧ f 4 = (0xFD, true, 0x0201) ∧ f 5 = (0xFE, true, 0x0201) ∧ f 6 = (0xFF, true, 0x1234) := by
  decide

/-- R35: `ctx.aux` is the pointer of `JMP (abs,X)` once it is known, the pointer of `(zp),Y` and then its base. -/
theorem test_ctx_aux :
    let j := { scene [0x7C, 0xFF, 0x12] with x := 0x02 }
    let l := put 0x0010 [0x34, 0x12] (scene [0xB1, 0x10])
    (shows (runForCyclesFine 4 (.done j))).1.ctx.aux = 0x1301 ∧ (shows (runForCyclesFine 2 (.done l))).1.ctx.aux = 0x0010 ∧
      (shows (runForCyclesFine 4 (.done l))).1.ctx.aux = 0x1234 := by decide

/-- R407: with `n = 0` the run calls do nothing, `finish_current` or not, and a break stays pending. -/
theorem test_run_calls_of_nothing (f : Bool) (s : State) (a : Action) :
    runForInstructions 0 f s = .next s ∧ runForCycles 0 s = .next s ∧ runForInstructionsFine 0 f a = .next a ∧
      runForCyclesFine 0 a = .next a := ⟨rfl, rfl, rfl, rfl⟩

/-- R405, D29: a break requested outside a run call ends the next one after its first unit, one cycle here, and is
cleared; at a boundary `finish_current` has no effect. -/
theorem test_pending_break_after_one_unit : ∀ f : Bool,
    let s := (scene [0xEA, 0xEA]).requestBreak
    let r := shows (runForInstructionsFine 2 f (.done s))
    r.1.cycleCount = 1 ∧ r.1.breakReq = false ∧ r.2 = true := by decide

/-- What the host does between runs of `n` and `m` cycles. -/
def actBetween (n m : Nat) (f : State → State) (s : State) : State × Bool :=
  match tickN n (.done s) with
  | .next a => shows (tickN m (a.onState f))
  | _ => (State.powerOn, false)

/-- R74: a byte the host changes between two cycles is seen by the fetch of a later cycle, and not by one already made. -/
theorem test_operand_changed_between_cycles :
    let s := put 0x0300 [0x11] (put 0x0310 [0x22] (scene [0xAD, 0x00, 0x03]))
    let f := fun s : State => HostAct.apply s (.poke 0x0201 0x10)
    (actBetween 1 3 f s).1.a = 0x22 ∧ (actBetween 2 2 f s).1.a = 0x11 ∧ (actBetween 1 3 f s).2 = false := by decide

/-- R74, R387: the third byte of a bit branch is fetched in cycle 5. -/
theorem test_branch_offset_changed_between_cycles :
    let s := put 0x0010 [0x00] (scene [0x0F, 0x10, 0x02])
    let f := fun s : State => HostAct.apply s (.poke 0x0202 0x08)
    (actBetween 4 2 f s).1.pc = 0x020B ∧ (actBetween 5 1 f s).1.pc = 0x0205 := by decide

end Sys2Proof.Tests
end

section
/-! PROOF. The statements of the family 10_state: the boundary invariant of R37 and the execution state of R29, both
from one inversion of a step, and the layout of the status byte (R27, R28, R31). -/

namespace Sys2Proof.Machine

/-- What a step can do to the execution state and the commit (R29, R331). -/
inductive ExecStep (s t : State) : Prop where
  /-- a stall, stopped or waiting cycle that ends nothing -/
  | kept (x : t.execState = s.execState) (c : t.committed = s.committed)
  /-- RESET, the end of a wait, an entry, or an instruction that goes on -/
  | running (x : t.execState = .running) (r : s.execState = .stopped → s.pendReset = true)
  /-- `WAI` or `STP` halts the core with nothing committed -/
  | halted (r : s.execState = .running) (c : t.committed = .none) (i : Instr) (rest : List Byte)
      (d : decode s.fetchBytes = .ok (i, rest))
      (x : (i = .wai ∧ t.execState = .waiting) ∨ (i = .stp ∧ t.execState = .stopped))

/-- What a step from `s` leaves at the next boundary, `t`. -/
structure Settles (s t : State) : Prop where
  memWf : s.mem.wf = true → t.mem.wf = true
  ctxIdle : t.ctx = Ctx.idle
  exec : ExecStep s t

/-- The final state of a whole action that reaches the end point. -/
theorem Good.ended_run {s₀ : State} {X : State → Prop} {a : Action} (h : Good s₀ X 0 a) :
    (s₀.mem.wf = true → a.run.mem.wf = true) ∧ a.run.ctx = Ctx.idle ∧ X a.run :=
  have ⟨e, _, x⟩ := Action.Ends.run h
  ⟨e.memWf, e.ctx, x⟩

theorem idled_execState (s : State) : s.idled.execState = s.execState := (went_idled s).execState

theorem settles_stall (s : State) : Settles s (stallCycle s).run :=
  ⟨(went_idled s).memWf, rfl, .kept (idled_execState s) (idled_committed s)⟩

theorem settles_stopped (s : State) : Settles s (stoppedCycle s).run :=
  ⟨(went_idled s).memWf, rfl, .kept (idled_execState s) (idled_committed s)⟩

theorem settles_waiting {s : State} (x : s.execState = .waiting) : Settles s (waitingCycle s).run := by
  rw [run_waitingCycle]
  split
  · exact ⟨(went_idled s).memWf, rfl, .running rfl (by simp [x])⟩
  · exact ⟨(went_idled s).memWf, rfl, .kept (idled_execState s) (idled_committed s)⟩

theorem settles_reset {s : State} (pend : s.pendReset = true) : Settles s (resetSequence s).run :=
  have ⟨m, c, x⟩ := (Good.resetSequence s).ended_run
  ⟨m, c, .running x fun _ => pend⟩

theorem settles_enter {s : State} (x : s.execState = .running) (e : Entry) : Settles s (enter e s).run :=
  have ⟨m, c, y⟩ := (Good.enter e s).ended_run
  ⟨by simpa using m, c, .running (y.trans x) (by simp [x])⟩

theorem settles_instruction {s : State} (x : s.execState = .running) {i : Instr} {rest : List Byte}
    (d : decode s.fetchBytes = .ok (i, rest)) : Settles s (cyclesOf i s).run := by
  obtain ⟨m, c, same | ⟨clear, halt⟩⟩ := (good_cyclesOf i s).ended_run
  · exact ⟨m, c, .running (same.trans x) (by simp [x])⟩
  · exact ⟨m, c, .halted x clear i rest d halt⟩

/-- The inversion of a step, for the boundary it reaches: the lines of R334 one by one. -/
theorem step_settles {s t : State} (h : step s = .next t) : Settles s t := by
  obtain ⟨-, a, -, did, rfl⟩ := step_next h
  cases did with
  | stall _ => exact settles_stall s
  | reset pend => exact settles_reset pend
  | stopped _ _ => exact settles_stopped s
  | waiting x _ => exact settles_waiting x
  | entry x _ e => exact settles_enter x e
  | instruction x _ _ i rest d => exact settles_instruction x d

theorem ExecStep.commitRunning {s t : State} (e : ExecStep s t) (h : s.committed ≠ .none → s.execState = .running) :
    t.committed ≠ .none → t.execState = .running := by
  intro ct
  cases e with
  | kept x c => exact x.trans (h (c ▸ ct))
  | running x _ => exact x
  | halted _ c _ _ _ _ => exact absurd c ct

/-- Settles O13, from what a step leaves at the next boundary. -/
theorem stepKeepsInvariant : Obligations.StepKeepsInvariant := by
  intro s t inv h
  obtain ⟨m, c, e⟩ := step_settles h
  exact ⟨m inv.memWf, c, e.commitRunning inv.commitRunning⟩

theorem ExecStep.decode_wai {s t : State} (e : ExecStep s t) (ht : t.execState = .waiting) (hs : s.execState ≠ .waiting) :
    ∃ rest, decode s.fetchBytes = .ok (.wai, rest) := by
  cases e with
  | kept x _ => exact absurd (x.symm.trans ht) hs
  | running x _ => simp [x] at ht
  | halted _ _ i rest d x =>
    obtain ⟨rfl, -⟩ | ⟨-, stop⟩ := x
    · exact ⟨rest, d⟩
    · simp [stop] at ht

theorem ExecStep.decode_stp {s t : State} (e : ExecStep s t) (ht : t.execState = .stopped) (hs : s.execState ≠ .stopped) :
    ∃ rest, decode s.fetchBytes = .ok (.stp, rest) := by
  cases e with
  | kept x _ => exact absurd (x.symm.trans ht) hs
  | running x _ => simp [x] at ht
  | halted _ _ i rest d x =>
    obtain ⟨-, wait⟩ | ⟨rfl, -⟩ := x
    · simp [wait] at ht
    · exact ⟨rest, d⟩

theorem ExecStep.pendReset {s t : State} (e : ExecStep s t) (hs : s.execState = .stopped)
    (ht : t.execState ≠ .stopped) : s.pendReset = true := by
  cases e with
  | kept x _ => exact absurd (x.trans hs) ht
  | running _ r => exact r hs
  | halted r _ _ _ _ _ => simp [r] at hs

/-- Settles O17, by the ways a step can change the execution state. -/
theorem executionStateTransitions : Obligations.ExecutionStateTransitions := by
  intro s t h
  have e := (step_settles h).exec
  exact ⟨e.decode_wai, e.decode_stp, e.pendReset⟩

/-- Settles O12: `State.reset` has empty memory, an idle context and nothing committed. -/
theorem resetSatisfiesInvariant : Obligations.ResetSatisfiesInvariant where
  memWf := rfl
  ctxIdle := rfl
  commitRunning := fun _ => rfl

/-- The bits of the status byte have their weights (R27). -/
theorem Flags.statusByte_toNat (p : Flags) (b : Bool) :
    (p.statusByte b).toNat = p.n.toNat * 128 + p.v.toNat * 64 + 32 + b.toNat * 16 + p.d.toNat * 8 + p.i.toNat * 4 +
      p.z.toNat * 2 + p.c.toNat := by
  obtain ⟨n, v, d, i, z, c⟩ := p
  revert n v b d i z c
  decide

/-- Reading back a written byte (R28): bits 5 and 4 read as 1. -/
theorem Flags.statusByte_ofByte (v : Byte) : (Flags.ofByte v).statusByte true = v ||| 0x30 := by
  revert v
  decide

/-- Settles O21: the getter and the setter are the byte's layout and its inverse. -/
theorem statusByteLayout : Obligations.StatusByteLayout :=
  fun _ p b v => ⟨p.statusByte_toNat b, rfl, rfl, rfl, Flags.statusByte_ofByte v⟩

end Sys2Proof.Machine
end

section
/-! PROOF. The statements of the family 20_memory: that a step makes one bus access in each of its cycles (R64, R78), and
that memory is a function of what was written (R61, R76). -/

namespace Sys2Proof.Machine

/-- From `s` to `t` at least one cycle passed, and the host saw exactly one access in each (R78). -/
def OneAccessPerCycle (s t : State) : Prop :=
  ∃ calls, t.trace = calls ++ s.trace ∧ t.cycleCount = s.cycleCount + (calls.filter HostCall.isAccess).length ∧
    s.cycleCount < t.cycleCount

theorem OneAccessPerCycle.of_count {s t : State} {n : Nat} (pos : 1 ≤ n) (cycles : t.cycleCount = s.cycleCount + n)
    (trace : ∃ calls, t.trace = calls ++ s.trace ∧ (calls.filter HostCall.isAccess).length = n) :
    OneAccessPerCycle s t := by
  obtain ⟨calls, tr, rfl⟩ := trace
  exact ⟨calls, tr, cycles, by omega⟩

theorem Good.oneAccessPerCycle {s₀ : State} {X : State → Prop} {a : Action} (g : Good s₀ X 0 a) :
    OneAccessPerCycle s₀ a.run :=
  have ⟨e, ⟨pos, _⟩, _⟩ := Action.Ends.run g
  .of_count pos e.cycleCount e.trace

/-- What follows the access of an idle cycle changes neither the counter nor the record. -/
theorem OneAccessPerCycle.of_idled {s t : State} (cycles : t.cycleCount = s.idled.cycleCount)
    (trace : t.trace = s.idled.trace) : OneAccessPerCycle s t :=
  have w := went_idled s
  .of_count (Nat.le_refl 1) (cycles.trans w.cycleCount) (trace ▸ w.trace)

theorem oneAccessPerCycle_waiting (s : State) : OneAccessPerCycle s (waitingCycle s).run := by
  rw [run_waitingCycle]
  split
  · exact .of_idled rfl rfl
  · exact .of_idled rfl rfl

/-- The acknowledgement at the start of an entry is no cycle and no call. -/
theorem oneAccessPerCycle_enter (e : Entry) (s : State) : OneAccessPerCycle s (enter e s).run := by
  have g := (Good.enter e s).oneAccessPerCycle
  cases e with
  | nmi => exact g
  | irq => exact g

/-- Every boundary action of R334 makes one access per cycle. -/
theorem Did.oneAccessPerCycle {s : State} {a : Action} (d : Did s a) : OneAccessPerCycle s a.run := by
  cases d with
  | stall _ => exact .of_idled rfl rfl
  | reset _ => exact (Good.resetSequence s).oneAccessPerCycle
  | stopped _ _ => exact .of_idled rfl rfl
  | waiting _ _ => exact oneAccessPerCycle_waiting s
  | entry _ _ e => exact oneAccessPerCycle_enter e s
  | instruction _ _ _ i _ _ => exact (good_cyclesOf i s).oneAccessPerCycle

/-- Settles O14, by the boundary action a step performs. -/
theorem cyclesAreBusAccesses : Obligations.CyclesAreBusAccesses := by
  intro s t h
  obtain ⟨-, a, -, did, rfl⟩ := step_next h
  exact did.oneAccessPerCycle

namespace Memory

theorem read_cons_self (k : Nat) (v : Byte) (rest : Memory) : Memory.read ((k, v) :: rest) k = v := by
  simp [Memory.read]

theorem read_cons_ne {k a : Nat} (h : k ≠ a) (v : Byte) (rest : Memory) :
    Memory.read ((k, v) :: rest) a = rest.read a := by
  simp [Memory.read, h]

theorem wfAbove_cons {lo : Option Nat} {k : Nat} {v : Byte} {rest : Memory}
    (h : wfAbove lo ((k, v) :: rest) = true) :
    k < 65536 ∧ v ≠ Config.openBus ∧ wfAbove (some k) rest = true := by
  simp only [wfAbove, Bool.and_eq_true, decide_eq_true_eq] at h
  obtain ⟨⟨⟨-, lt⟩, listed⟩, above⟩ := h
  exact ⟨lt, listed, above⟩

/-- Below the first listed address of canonical memory everything reads as open bus. -/
theorem read_cons_of_lt {lo : Option Nat} {k a : Nat} {v : Byte} {rest : Memory}
    (h : wfAbove lo ((k, v) :: rest) = true) (lt : a < k) : Memory.read ((k, v) :: rest) a = Config.openBus := by
  obtain ⟨-, -, above⟩ := wfAbove_cons h
  rw [read_cons_ne (Nat.ne_of_gt lt), read_of_wfAbove above (Nat.le_of_lt lt)]

/-- The two memories read alike at every address of the bus. -/
def ReadAlike (m m' : Memory) : Prop := ∀ a < 65536, m.read a = m'.read a

theorem ReadAlike.symm {m m' : Memory} (h : ReadAlike m m') : ReadAlike m' m := fun a ha => (h a ha).symm

/-- A listed byte is seen: memory that lists one does not read like the empty one. -/
theorem not_readAlike_nil_cons {lo : Option Nat} {k : Nat} {v : Byte} {rest : Memory}
    (wf : wfAbove lo ((k, v) :: rest) = true) : ¬ ReadAlike [] ((k, v) :: rest) := by
  intro alike
  obtain ⟨lt, listed, -⟩ := wfAbove_cons wf
  exact listed ((read_cons_self k v rest).symm.trans (alike k lt).symm)

/-- What is listed first in one memory is not below what is listed first in another that reads alike. -/
theorem ReadAlike.head_le {lo lo' : Option Nat} {k k' : Nat} {v v' : Byte} {rest rest' : Memory}
    (wf : wfAbove lo ((k, v) :: rest) = true) (wf' : wfAbove lo' ((k', v') :: rest') = true)
    (alike : ReadAlike ((k, v) :: rest) ((k', v') :: rest')) : k' ≤ k := by
  by_contra lt
  obtain ⟨bound, listed, -⟩ := wfAbove_cons wf
  have seen := alike k bound
  rw [read_cons_self, read_cons_of_lt wf' (by omega)] at seen
  exact listed seen

/-- Behind a first address that both list, canonical memories that read alike still do. -/
theorem ReadAlike.tail {lo lo' : Option Nat} {k : Nat} {v v' : Byte} {rest rest' : Memory}
    (wf : wfAbove lo ((k, v) :: rest) = true) (wf' : wfAbove lo' ((k, v') :: rest') = true)
    (alike : ReadAlike ((k, v) :: rest) ((k, v') :: rest')) : ReadAlike rest rest' := by
  intro a ha
  obtain ⟨-, -, above⟩ := wfAbove_cons wf
  obtain ⟨-, -, above'⟩ := wfAbove_cons wf'
  rcases Nat.lt_or_ge k a with lt | le
  · simpa [read_cons_ne (Nat.ne_of_lt lt)] using alike a ha
  · rw [read_of_wfAbove above le, read_of_wfAbove above' le]

/-- The canonical form is one: memories in it that read alike are equal. -/
theorem ReadAlike.eq {lo lo' : Option Nat} {m m' : Memory} (wf : wfAbove lo m = true) (wf' : wfAbove lo' m' = true)
    (alike : ReadAlike m m') : m = m' := by
  induction m generalizing lo lo' m' with
  | nil =>
    cases m' with
    | nil => rfl
    | cons e' rest' => exact absurd alike (not_readAlike_nil_cons wf')
  | cons e rest ih =>
    cases m' with
    | nil => exact absurd alike.symm (not_readAlike_nil_cons wf)
    | cons e' rest' =>
      obtain ⟨k, v⟩ := e
      obtain ⟨k', v'⟩ := e'
      obtain rfl : k = k' := Nat.le_antisymm (alike.symm.head_le wf' wf) (alike.head_le wf wf')
      obtain ⟨bound, -, above⟩ := wfAbove_cons wf
      obtain ⟨-, -, above'⟩ := wfAbove_cons wf'
      have first : v = v' := by simpa [read_cons_self] using alike k bound
      rw [first, ih above above' (alike.tail wf wf')]

/-- An address below 65536 is a word. -/
theorem ReadAlike.of_words {m m' : Memory} (h : ∀ b : Word, m.read b.toNat = m'.read b.toNat) : ReadAlike m m' := by
  intro a ha
  simpa [Nat.mod_eq_of_lt ha] using h (BitVec.ofNat 16 a)

end Memory

/-- Settles O20: the laws of `Memory.write`, and that the canonical form is one. -/
theorem memoryReadsWhatWasWritten : Obligations.MemoryReadsWhatWasWritten := by
  intro m a v w wf
  refine ⟨Memory.read_write_same _ v wf, fun b other => ?_, Memory.wf_write_word a v wf, Memory.write_write _ v w wf,
    fun m' wf' alike => (Memory.ReadAlike.of_words alike).eq wf' wf⟩
  exact Memory.read_write_other m v fun e => other (BitVec.eq_of_toNat_eq e)

end Sys2Proof.Machine
end

section
/-! PROOF. The statements of the family 30_encoding: decoding inverts encoding, and the first byte gives the length
(R90 to R97). Both rest on what an entry of the opcode matrix says about the bytes of its instructions. -/

namespace Sys2Proof

/-- How many operand bytes an entry of the matrix takes (R91, R97). -/
def Form.arity : Form → Nat
  | .none _ => 0
  | .one _ => 1
  | .two _ => 2

/-- The instruction of an entry for the operand bytes `d` and `e`, of which it takes the first `arity`. -/
def Form.fill (d e : Byte) : Form → Instr
  | .none i => i
  | .one f => f d
  | .two f => f d e

/-- The entry belongs at `opcode`: it takes as many operand bytes as the opcode calls for, and its instructions encode
to the opcode and these bytes. -/
structure Form.BelongsAt (opcode : Byte) (f : Form) : Prop where
  arity_eq : f.arity = operandCount opcode
  encode_fill : ∀ d e, encode (f.fill d e) = opcode :: [d, e].take f.arity

/-- The opcode at a row and a column of the matrix (R93). -/
def opcodeAt (row column : Nat) : Byte := BitVec.ofNat 8 (16 * row + column)

theorem opcodeAt_div_mod (opcode : Byte) : opcodeAt (opcode.toNat / 16) (opcode.toNat % 16) = opcode := by
  simp [opcodeAt, Nat.div_add_mod]

/-- A row of the matrix, evaluated. -/
theorem map_arity_row {row : Nat} (h : row < 16) :
    (List.range 16).map (fun column => (opcodeForm (opcodeAt row column)).arity) =
      (List.range 16).map (fun column => operandCount (opcodeAt row column)) := by
  interval_cases row <;> rfl

/-- A row of the matrix, evaluated with the operand bytes left open. -/
theorem map_encode_row (d e : Byte) {row : Nat} (h : row < 16) :
    (List.range 16).map (fun column => encode ((opcodeForm (opcodeAt row column)).fill d e)) =
      (List.range 16).map (fun column => opcodeAt row column :: [d, e].take (opcodeForm (opcodeAt row column)).arity) := by
  interval_cases row <;> rfl

/-- Every entry of the matrix stands at its own opcode (R93, R96). -/
theorem opcodeForm_belongsAt (opcode : Byte) : (opcodeForm opcode).BelongsAt opcode := by
  have row : opcode.toNat / 16 < 16 := by have := opcode.isLt; omega
  have column : opcode.toNat % 16 ∈ List.range 16 := List.mem_range.2 (Nat.mod_lt _ (by decide))
  rw [← opcodeAt_div_mod opcode]
  exact ⟨List.map_inj_left.1 (map_arity_row row) _ column,
    fun d e => List.map_inj_left.1 (map_encode_row d e row) _ column⟩

/-- What an entry answers is filled with the operand bytes it took. -/
theorem Form.eq_fill_of_takeOperands {f : Form} {opcode : Byte} {rest tail : List Byte} {i : Instr}
    (ok : f.takeOperands opcode rest = .ok (i, tail)) :
    ∃ d e, i = f.fill d e ∧ rest = [d, e].take f.arity ++ tail := by
  unfold takeOperands at ok
  split at ok
  next => cases ok; exact ⟨0, 0, rfl, rfl⟩
  next d rest => cases ok; exact ⟨d, 0, rfl, rfl⟩
  next d e rest => cases ok; exact ⟨d, e, rfl, rfl⟩
  next => cases ok

/-- What an entry reads at its own opcode are the bytes of the instruction it answers. -/
theorem Form.BelongsAt.eq_encode_append {opcode : Byte} {f : Form} (h : f.BelongsAt opcode) {rest tail : List Byte}
    {i : Instr} (ok : f.takeOperands opcode rest = .ok (i, tail)) : opcode :: rest = encode i ++ tail := by
  obtain ⟨d, e, rfl, rfl⟩ := eq_fill_of_takeOperands ok
  rw [h.encode_fill, List.cons_append]

/-- An entry reads its operand bytes when they are there, and leaves the rest. -/
theorem Form.takeOperands_ok_iff (f : Form) (opcode : Byte) (rest tail : List Byte) :
    (∃ i, f.takeOperands opcode rest = .ok (i, tail)) ↔ f.arity ≤ rest.length ∧ tail = rest.drop f.arity := by
  cases f with
  | none i => simp [takeOperands, arity, eq_comm]
  | one f =>
    match rest with
    | [] => simp [takeOperands, arity]
    | d :: rest => simp [takeOperands, arity, eq_comm]
  | two f =>
    match rest with
    | [] | [_] => simp [takeOperands, arity]
    | d :: e :: rest => simp [takeOperands, arity, eq_comm]

theorem Form.arity_le_two (f : Form) : f.arity ≤ 2 := by
  cases f <;> simp [arity]

theorem operandCount_le_two (opcode : Byte) : operandCount opcode ≤ 2 :=
  (opcodeForm_belongsAt opcode).arity_eq ▸ (opcodeForm opcode).arity_le_two

/-- Decoding reads an encoding as its instruction: the matrix holds each constructor at its opcode (R93). -/
theorem decode_encode (i : Instr) (rest : List Byte) : decode (encode i ++ rest) = .ok (i, rest) := by
  cases i <;> rfl

/-- What decoding reads is the encoding of what it answers (R90, R91). -/
theorem eq_encode_append_of_decode {bytes rest : List Byte} {i : Instr} (ok : decode bytes = .ok (i, rest)) :
    bytes = encode i ++ rest := by
  cases bytes with
  | nil => cases ok
  | cons opcode operands => exact (opcodeForm_belongsAt opcode).eq_encode_append ok

/-- Settles O9: `decode` reads every encoding back, and reads nothing else. -/
theorem decodeOfEncode : Obligations.DecodeOfEncode := by
  intro i rest bytes
  refine ⟨eq_encode_append_of_decode, ?_⟩
  rintro rfl
  exact decode_encode i rest

/-- The first byte alone says whether there are bytes enough, and what is left (R90, R96). -/
theorem decode_cons_ok_iff (opcode : Byte) (rest tail : List Byte) :
    (∃ i, decode (opcode :: rest) = .ok (i, tail)) ↔
      operandCount opcode ≤ rest.length ∧ tail = rest.drop (operandCount opcode) := by
  rw [← (opcodeForm_belongsAt opcode).arity_eq]
  exact (opcodeForm opcode).takeOperands_ok_iff opcode rest tail

theorem wellFormedBytes_iff_decode (bytes : List Byte) :
    wellFormedBytes bytes = true ↔ ∃ i, decode bytes = .ok (i, []) := by
  cases bytes with
  | nil => simp [wellFormedBytes, decode]
  | cons opcode operands =>
    rw [decode_cons_ok_iff, eq_comm (a := []), List.drop_eq_nil_iff, wellFormedBytes, beq_iff_eq]
    omega

/-- Settles O10, from the operand bytes that the matrix entry of an opcode takes. -/
theorem everyOpcodeDecodesByItsFirstByte : Obligations.EveryOpcodeDecodesByItsFirstByte := by
  refine ⟨wellFormedBytes_iff_decode, fun opcode rest => ⟨operandCount_le_two opcode, ?_⟩⟩
  rw [decode_cons_ok_iff]
  exact (and_iff_left rfl).symm

/-- Settles O11: each word is the encoding of its instruction. -/
theorem specWordsDecode : Obligations.SpecWordsDecode :=
  ⟨decode_encode (.ldaImm 0x42) [], decode_encode (.ldaAbsx 0xFF 0x12) [], decode_encode (.jmpAbsi 0xFF 0x12) [],
    decode_encode (.jsr 0x00 0x30) [], decode_encode (.bbr3 0x10 0x05) [], decode_encode (.bbs7 0x10 0xFD) [],
    decode_encode (.rmb3 0x10) [], decode_encode (.smb7 0x10) [], decode_encode (.brk 0xEA) [],
    decode_encode .wai [], decode_encode .stp [], decode_encode (.nop5C 0x34 0x12) []⟩

end Sys2Proof
end

section
/-! PROOF. The statements of the family 41_load_store (R150 to R158). Each form is the read or the store template with its
own mode and operation, so `read_completes` and `store_completes` apply, and what a form adds is found by evaluation: its
arm, its encoding, its length, its effect and its cycles. Only the cycles of an indexed read, which depend on the page, need
a lemma. -/

namespace Sys2Proof.Machine

/-- A read in `ABSX` takes four cycles and the page penalty (R128, R130, R150). -/
theorem cycles_read_absx (al ah : Byte) (s : State) :
    Mode.resolverCycles (.absx al ah) .read s + 2 = 4 + Mode.penalty (.absx al ah) s :=
  Nat.add_right_comm 2 _ 2

/-- A read in `ABSY` takes four cycles and the page penalty (R129, R130, R150). -/
theorem cycles_read_absy (al ah : Byte) (s : State) :
    Mode.resolverCycles (.absy al ah) .read s + 2 = 4 + Mode.penalty (.absy al ah) s :=
  Nat.add_right_comm 2 _ 2

/-- A read in `ZPIY` takes five cycles and the page penalty (R130, R133, R150). -/
theorem cycles_read_zpiy (d : Byte) (s : State) :
    Mode.resolverCycles (.zpiy d) .read s + 2 = 5 + Mode.penalty (.zpiy d) s :=
  Nat.add_right_comm 3 _ 2

/-- Settles O25: each form is the read template with `lda`. -/
theorem ldaLoadsA : Obligations.LdaLoadsA := by
  intro s d al ah quiet
  refine ⟨?zpxi, ?zp, ?imm, ?abs, ?zpiy, ?zpi, ?zpx, ?absy, ?absx⟩
  all_goals refine read_completes quiet _ rfl rfl rfl ?_ (fun _ _ _ _ => rfl) rfl ⟨rfl, rfl, rfl⟩
  case zpiy => exact cycles_read_zpiy d s
  case absy => exact cycles_read_absy al ah s
  case absx => exact cycles_read_absx al ah s
  all_goals rfl

/-- Settles O26: each form is the read template with `ldx` or `ldy`. -/
theorem ldxLdyLoadIndexRegisters : Obligations.LdxLdyLoadIndexRegisters := by
  intro s d al ah quiet
  refine ⟨?xImm, ?xZp, ?xAbs, ?xZpy, ?xAbsy, ?yImm, ?yZp, ?yAbs, ?yZpx, ?yAbsx⟩
  all_goals refine read_completes quiet _ rfl rfl rfl ?_ (fun _ _ _ _ => rfl) rfl ⟨rfl, rfl, rfl⟩
  case xAbsy => exact cycles_read_absy al ah s
  case yAbsx => exact cycles_read_absx al ah s
  all_goals rfl

/-- Settles O27: each form is the store template with `A`; a store always makes the dead read (R130), so no count
depends on the page. -/
theorem staStoresA : Obligations.StaStoresA := by
  intro s d al ah quiet wf
  refine ⟨?zpxi, ?zp, ?abs, ?zpiy, ?zpi, ?zpx, ?absy, ?absx⟩
  all_goals exact store_completes quiet wf s.a rfl rfl rfl rfl nofun (fun _ _ _ => rfl) rfl

/-- Settles O28: each form is the store template with `X`, `Y` or zero. -/
theorem stxStyStzStore : Obligations.StxStyStzStore := by
  intro s d al ah quiet wf
  refine ⟨?xZp, ?xAbs, ?xZpy, ?yZp, ?yAbs, ?yZpx, ?zZp, ?zZpx, ?zAbs, ?zAbsx⟩
  case xZp | xAbs | xZpy => exact store_completes quiet wf s.x rfl rfl rfl rfl nofun (fun _ _ _ => rfl) rfl
  case yZp | yAbs | yZpx => exact store_completes quiet wf s.y rfl rfl rfl rfl nofun (fun _ _ _ => rfl) rfl
  all_goals exact store_completes quiet wf 0 rfl rfl rfl rfl nofun (fun _ _ _ => rfl) rfl

end Sys2Proof.Machine
end

section
/-! PROOF. The statements of the family 42_alu (R170 to R182). First the three arithmetic functions, as numbers: `toNat` turns
each into a statement of linear arithmetic. Then the instructions, by the template lemmas; `ADC` and `SBC` are one operation with
different results, so their case split on `P.D` and `BCD_INVALID` is made once. -/

namespace Sys2Proof.Machine

/-! ## Binary and decimal arithmetic (R171 to R173) -/

theorem addBin_r_toNat (a b : Byte) (c : Bool) :
    (addBin a b c).r.toNat = (a.toNat + b.toNat + c.toNat) % 256 := BitVec.toNat_ofNat _ _

/-- The carry is the carry out of bit 7 (R171). -/
theorem addBin_cout_iff (a b : Byte) (c : Bool) :
    (addBin a b c).cout = true ↔ a.toNat + b.toNat + c.toNat > 0xFF := decide_eq_true_iff

/-- The sign bit is the bit that the mask `$80` selects. -/
theorem msb_iff_and_0x80_ne_zero (x : Byte) : x.msb = true ↔ x &&& 0x80 ≠ 0 := by
  rw [show (0x80 : Byte) = BitVec.twoPow 8 7 from rfl, BitVec.and_twoPow, BitVec.msb_eq_getLsbD_last]
  cases x.getLsbD 7 <;> decide

/-- Overflow: the operands have one sign and the result the other (R171). -/
theorem addBin_v_iff_signs (a b : Byte) (c : Bool) :
    (addBin a b c).v = true ↔ a.msb = b.msb ∧ (addBin a b c).r.msb ≠ a.msb := by
  have hv : (addBin a b c).v = ((a.msb ^^ (addBin a b c).r.msb) && (b.msb ^^ (addBin a b c).r.msb)) := by
    simp [addBin]
  rw [hv]
  cases a.msb <;> cases b.msb <;> cases (addBin a b c).r.msb <;> decide

/-- The signs say when the signed sum leaves -128..127. -/
theorem addBin_v_iff_signed_range (a b : Byte) (c : Bool) :
    (addBin a b c).v = true ↔ a.toInt + b.toInt + c.toNat < -128 ∨ a.toInt + b.toInt + c.toNat > 127 := by
  have hr := addBin_r_toNat a b c
  have hc := c.toNat_le
  rw [addBin_v_iff_signs]
  simp only [BitVec.msb_eq_decide, BitVec.toInt_eq_toNat_cond, ne_eq, decide_eq_decide]
  omega

/-- Settles O22. -/
theorem binaryAddResultCarryOverflow : Obligations.BinaryAddResultCarryOverflow := fun a b c =>
  ⟨addBin_r_toNat a b c, addBin_cout_iff a b c, msb_iff_and_0x80_ne_zero _, addBin_v_iff_signs a b c,
    addBin_v_iff_signed_range a b c⟩

theorem bcd_toNat {tens ones : Nat} (ht : tens ≤ 9) (ho : ones ≤ 9) : (bcd tens ones).toNat = 16 * tens + ones := by
  rw [bcd, BitVec.toNat_ofNat]
  omega

/-- The adjusted sum of two packed decimal numbers, digit by digit; above 99 it keeps a hundred as `$100` (R172). -/
theorem addDecSum_bcd {x1 x0 y1 y0 sum : Nat} {c : Bool} (hx1 : x1 ≤ 9) (hx0 : x0 ≤ 9) (hy1 : y1 ≤ 9) (hy0 : y0 ≤ 9)
    (hsum : sum = 10 * x1 + x0 + (10 * y1 + y0) + c.toNat) :
    addDecSum (bcd x1 x0) (bcd y1 y0) c = 256 * (sum / 100) + 16 * (sum / 10 % 10) + sum % 10 := by
  have hc := c.toNat_le
  simp only [addDecSum, addDecLow, bcd_toNat hx1 hx0, bcd_toNat hy1 hy0]
  split <;> split <;> omega

/-- Settles O23: cut to a byte, the adjusted sum is the last two digits, and its hundred is the carry. -/
theorem decimalAddIsDecimalAddition : Obligations.DecimalAddIsDecimalAddition := by
  intro x1 x0 y1 y0 c hx1 hx0 hy1 hy0 sum
  rw [addDec, addDecSum_bcd hx1 hx0 hy1 hy0 (sum := sum) rfl]
  clear_value sum
  refine Prod.ext (BitVec.eq_of_toNat_eq ?_) (decide_eq_decide.mpr ?_)
  · rw [BitVec.toNat_ofNat, bcd_toNat (by omega) (by omega)]
    omega
  · omega

/-- A hundred is added to the difference, so that it is a natural number (R173). -/
theorem subDec_bcd {x1 x0 y1 y0 diff : Nat} {c : Bool} (hx1 : x1 ≤ 9) (hx0 : x0 ≤ 9) (hy1 : y1 ≤ 9) (hy0 : y0 ≤ 9)
    (hdiff : diff = 100 + (10 * x1 + x0) + c.toNat - 1 - (10 * y1 + y0)) :
    subDec (bcd x1 x0) (bcd y1 y0) c = bcd (diff / 10 % 10) (diff % 10) := by
  have hc := c.toNat_le
  apply BitVec.eq_of_toNat_eq
  rw [bcd_toNat (by omega) (by omega)]
  simp only [subDec, bcd_toNat hx1 hx0, bcd_toNat hy1 hy0, BitVec.toNat_ofInt]
  split <;> split <;> omega

/-- The carry of a subtraction is "no borrow" (R173). -/
theorem addBin_not_cout_iff (a b : Byte) (c : Bool) :
    (addBin a (~~~b) c).cout = true ↔ b.toNat + 1 ≤ a.toNat + c.toNat := by
  rw [addBin_cout_iff, BitVec.toNat_not]
  omega

/-- Settles O24: the decimal and the binary difference of packed decimal numbers have the same sign. -/
theorem decimalSubtractIsDecimalSubtraction : Obligations.DecimalSubtractIsDecimalSubtraction := by
  intro x1 x0 y1 y0 c hx1 hx0 hy1 hy0 diff
  have hdiff : diff = 100 + (10 * x1 + x0) + c.toNat - 1 - (10 * y1 + y0) := rfl
  clear_value diff
  have hc := c.toNat_le
  refine ⟨subDec_bcd hx1 hx0 hy1 hy0 hdiff, ?_⟩
  rw [addBin_not_cout_iff, bcd_toNat hx1 hx0, bcd_toNat hy1 hy0]
  omega

/-! ## ADC and SBC (R170, R174, R175) -/

/-- What `adc` and `sbc` share, from the binary sum `b` and the decimal result `r` and carry `c`. -/
def decimalOp (b : Sum) (r : Byte) (c : Bool) (m : Byte) (s : State) : State :=
  if s.p.d then
    if s.bcdOpen m then s.drawn.setDecimal (Config.freeByte s.draws) (Config.freeBit s.draws) b.v
    else s.setDecimal r c b.v
  else s.setDecimal b.r b.cout b.v

theorem adc_eq_decimalOp (m : Byte) (s : State) :
    adc m s = decimalOp (addBin s.a m s.p.c) (addDec s.a m s.p.c).1 (addDec s.a m s.p.c).2 m s := rfl

theorem sbc_eq_decimalOp (m : Byte) (s : State) :
    sbc m s = decimalOp (addBin s.a (~~~m) s.p.c) (subDec s.a m s.p.c) (addBin s.a (~~~m) s.p.c).cout m s := rfl

section

variable (b : Sum) (r : Byte) (c : Bool) (m : Byte) (s : State)

/-- The three branches, field by field. -/
theorem decimalOp_eq : decimalOp b r c m s =
    if s.p.d = false then { s with a := b.r, p := { s.p with n := b.r.msb, v := b.v, z := b.r == 0, c := b.cout } }
    else if s.bcdOpen m then
      let f := Config.freeByte s.draws
      { s with
        a := f, draws := s.draws + 1
        p := { s.p with n := f.msb, v := b.v, z := f == 0, c := Config.freeBit s.draws } }
    else { s with a := r, p := { s.p with n := r.msb, v := b.v, z := r == 0, c := c } } := by
  unfold decimalOp
  cases s.p.d <;> rfl

/-- The operation neither reads nor changes the program counter and the record. -/
theorem decimalOp_spentSampled (l : List HostCall) (w : Word) (co : Commit) (x : Ctx) :
    decimalOp b r c m (s.spentSampled l w co x) =
      (decimalOp b r c m s).recorded w (l.reverse ++ s.trace) (s.cycleCount + l.length) co x := by
  have hd : (s.spentSampled l w co x).p.d = s.p.d := rfl
  have ho : (s.spentSampled l w co x).bcdOpen m = s.bcdOpen m := rfl
  rw [decimalOp, decimalOp, hd, ho]
  cases s.p.d
  · rfl
  · cases s.bcdOpen m <;> rfl

theorem decimalOp_keeps : (decimalOp b r c m s).pc = s.pc ∧ SameHost s (decimalOp b r c m s) := by
  unfold decimalOp
  cases s.p.d
  · exact ⟨rfl, rfl, rfl, rfl⟩
  · cases s.bcdOpen m <;> exact ⟨rfl, rfl, rfl, rfl⟩

end

/-- `decimal_completes` for an instruction whose operation is `decimalOp` of results that depend on the byte read. -/
theorem decimalOp_completes {s : State} (quiet : Quiet s) {i : Instr} {bytes : List Byte} {m : Mode} {n : Nat} {op : Byte}
    {f : Byte → State → State} (b : Byte → Sum) (r : Byte → Byte) (c : Byte → Bool)
    (hi : exec i s = complete (decimalInstr op m f s)) (hb : encode i = bytes)
    (hl : s.pc + BitVec.ofNat 16 bytes.length = m.pcNext s.pc) (hn : m.resolverCycles .read s + 2 = n)
    (hf : ∀ v l w co x, f v (s.spentSampled l w co x) = decimalOp (b v) (r v) (c v) v (s.spentSampled l w co x)) :
    DecimalCompletes s i bytes m n fun v => decimalOp (b v) (r v) (c v) v s := by
  obtain ⟨hpc, host⟩ := decimalOp_keeps (b (m.operand s)) (r (m.operand s)) (c (m.operand s)) (m.operand s) s
  exact decimal_completes quiet _ hi hb hl hn
    (fun l w co x => (hf _ l w co x).trans (decimalOp_spentSampled ..)) hpc host

/-- Settles O29: each form is the decimal template with `adc`. -/
theorem adcAddsWithCarry : Obligations.AdcAddsWithCarry := by
  intro s d al ah quiet eff
  have heff : eff = fun v =>
      decimalOp (addBin s.a v s.p.c) (addDec s.a v s.p.c).1 (addDec s.a v s.p.c).2 v s :=
    funext fun v => (decimalOp_eq ..).symm
  rw [heff]
  refine ⟨?zpxi, ?zp, ?imm, ?abs, ?zpiy, ?zpi, ?zpx, ?absy, ?absx⟩
  all_goals refine decimalOp_completes quiet _ _ _ rfl rfl rfl ?_ fun v _ _ _ _ => adc_eq_decimalOp v _
  case zpiy => exact cycles_read_zpiy d s
  case absy => exact cycles_read_absy al ah s
  case absx => exact cycles_read_absx al ah s
  all_goals rfl

/-- Settles O30: each form is the decimal template with `sbc`. -/
theorem sbcSubtractsWithCarry : Obligations.SbcSubtractsWithCarry := by
  intro s d al ah quiet eff
  have heff : eff = fun v =>
      decimalOp (addBin s.a (~~~v) s.p.c) (subDec s.a v s.p.c) (addBin s.a (~~~v) s.p.c).cout v s :=
    funext fun v => (decimalOp_eq ..).symm
  rw [heff]
  refine ⟨?zpxi, ?zp, ?imm, ?abs, ?zpiy, ?zpi, ?zpx, ?absy, ?absx⟩
  all_goals refine decimalOp_completes quiet _ _ _ rfl rfl rfl ?_ fun v _ _ _ _ => sbc_eq_decimalOp v _
  case zpiy => exact cycles_read_zpiy d s
  case absy => exact cycles_read_absy al ah s
  case absx => exact cycles_read_absx al ah s
  all_goals rfl

/-! ## Logic, compares and BIT (R176 to R182) -/

/-- Settles O31: each form is the read template with `andA`, `ora` or `eor`. -/
theorem logicOperationsOnA : Obligations.LogicOperationsOnA := by
  intro s d al ah quiet
  refine ⟨?_, ?_, ?_, ?_, ?andZpiy, ?_, ?_, ?andAbsy, ?andAbsx,
    ?_, ?_, ?_, ?_, ?oraZpiy, ?_, ?_, ?oraAbsy, ?oraAbsx,
    ?_, ?_, ?_, ?_, ?eorZpiy, ?_, ?_, ?eorAbsy, ?eorAbsx⟩
  all_goals refine read_completes quiet _ rfl rfl rfl ?_ (fun _ _ _ _ => rfl) rfl ⟨rfl, rfl, rfl⟩
  case andZpiy | oraZpiy | eorZpiy => exact cycles_read_zpiy d s
  case andAbsy | oraAbsy | eorAbsy => exact cycles_read_absy al ah s
  case andAbsx | oraAbsx | eorAbsx => exact cycles_read_absx al ah s
  all_goals rfl

/-- Settles O32: each form is the read template with `compareReg` of its register. -/
theorem comparesSetNzc : Obligations.ComparesSetNzc := by
  intro s d al ah quiet
  refine ⟨?_, ?_, ?_, ?_, ?cmpZpiy, ?_, ?_, ?cmpAbsy, ?cmpAbsx, ?_, ?_, ?_, ?_, ?_, ?_⟩
  all_goals refine read_completes quiet _ rfl rfl rfl ?_ (fun _ _ _ _ => rfl) rfl ⟨rfl, rfl, rfl⟩
  case cmpZpiy => exact cycles_read_zpiy d s
  case cmpAbsy => exact cycles_read_absy al ah s
  case cmpAbsx => exact cycles_read_absx al ah s
  all_goals rfl

/-- Settles O33: each memory form is the read template with `bitMem`, the immediate one with `bitImm`. -/
theorem bitTestsFlags : Obligations.BitTestsFlags := by
  intro s d al ah quiet
  refine ⟨?zp, ?abs, ?zpx, ?absx, ?imm⟩
  all_goals refine read_completes quiet _ rfl rfl rfl ?_ (fun _ _ _ _ => rfl) rfl ⟨rfl, rfl, rfl⟩
  case absx => exact cycles_read_absx al ah s
  all_goals rfl

end Sys2Proof.Machine
end

section
/-! PROOF. The statements of the family 43_rmw_bit (R190 to R205). `Computes` says once what an operation makes of the byte, of
`A` and of the flags; from it the operation completes in memory (R190) and in a register (R191). What is particular to an
operation is then one lemma, and for the shifts and rotates that lemma is their arithmetic. -/

namespace Sys2Proof.Machine

/-! ## From an operation to its instructions -/

/-- The operation makes of the old byte, `A` and the flags what `h` says, and touches nothing of the state but the flags. -/
def Computes (f : Modify) (h : Byte → Byte → Flags → Byte × Flags) : Prop :=
  ∀ v s, f v s = ((h v s.a s.p).1, s.setP (h v s.a s.p).2)

section

variable {f : Modify} {h : Byte → Byte → Flags → Byte × Flags} (hc : Computes f h) {s : State} (quiet : Quiet s)
  {i : Instr} {op : Byte}
include hc quiet

/-- A memory form (R190). -/
theorem Computes.memory (wf : s.mem.wf = true) {bytes : List Byte} {m : Mode} {kind : Kind} {n : Nat}
    (hi : exec i s = complete (rmwInstr op m kind f s)) (hb : encode i = bytes)
    (hl : s.pc + BitVec.ofNat 16 bytes.length = m.pcNext s.pc) (hn : m.resolverCycles kind s + 4 = n)
    (hm : ∀ d, m ≠ .imm d) :
    RmwCompletes s i bytes m kind n (h (s.byteAt (m.ea s)) s.a s.p).1 (h (s.byteAt (m.ea s)) s.a s.p).2 :=
  rmw_completes quiet wf (fun a p => (h _ a p).1) (fun a p => (h _ a p).2) hi hb hl hn hm (hc _) rfl rfl

/-- The accumulator form (R191). -/
theorem Computes.accumulator (hi : exec i s = complete (impliedInstr op (modifyA f) s)) (hb : encode i = [op]) :
    ImpliedCompletes s i op { s with a := (h s.a s.a s.p).1, p := (h s.a s.a s.p).2 } :=
  implied_completes quiet _ hi hb (fun _ _ _ _ => by rw [modifyA, hc]; rfl) rfl ⟨rfl, rfl, rfl⟩

/-- The form that works on `X` (R191). -/
theorem Computes.indexX (hi : exec i s = complete (impliedInstr op (modifyX f) s)) (hb : encode i = [op]) :
    ImpliedCompletes s i op { s with x := (h s.x s.a s.p).1, p := (h s.x s.a s.p).2 } :=
  implied_completes quiet _ hi hb (fun _ _ _ _ => by rw [modifyX, hc]; rfl) rfl ⟨rfl, rfl, rfl⟩

/-- The form that works on `Y` (R191). -/
theorem Computes.indexY (hi : exec i s = complete (impliedInstr op (modifyY f) s)) (hb : encode i = [op]) :
    ImpliedCompletes s i op { s with y := (h s.y s.a s.p).1, p := (h s.y s.a s.p).2 } :=
  implied_completes quiet _ hi hb (fun _ _ _ _ => by rw [modifyY, hc]; rfl) rfl ⟨rfl, rfl, rfl⟩

end

/-- A shift or rotate in `ABSX` takes six cycles and the page penalty (R128, R130, R190). -/
theorem cycles_rmwShift_absx (al ah : Byte) (s : State) :
    Mode.resolverCycles (.absx al ah) .rmwShift s + 4 = 6 + Mode.penalty (.absx al ah) s :=
  Nat.add_right_comm 2 _ 4

/-! ## Shifts and rotates as numbers (R192 to R195) -/

theorem shiftLeft_one_eq (v : Byte) : v <<< 1 = BitVec.ofNat 8 (v.toNat * 2) :=
  BitVec.eq_of_toNat_eq (by simp [Nat.shiftLeft_eq])

theorem ushiftRight_one_eq (v : Byte) : v >>> 1 = BitVec.ofNat 8 (v.toNat / 2) :=
  BitVec.eq_of_toNat_eq (by rw [BitVec.toNat_ushiftRight, BitVec.toNat_ofNat, Nat.shiftRight_eq_div_pow]; omega)

/-- The carry comes in at bit 0, which the shift has cleared. -/
theorem rotateLeft_carry_eq (v : Byte) (c : Bool) :
    v <<< 1 ||| (BitVec.ofBool c).setWidth 8 = BitVec.ofNat 8 (v.toNat * 2 + c.toNat) := by
  have disjoint : v <<< 1 &&& (BitVec.ofBool c).setWidth 8 = 0 := by
    ext k hk
    cases k <;> simp
  have carry : (BitVec.ofBool c).setWidth 8 = BitVec.ofNat 8 c.toNat := by cases c <;> rfl
  rw [← BitVec.add_eq_or_of_and_eq_zero _ _ disjoint, shiftLeft_one_eq, carry, BitVec.ofNat_add]

/-- The carry comes in at bit 7, which the shift has cleared. -/
theorem rotateRight_carry_eq (v : Byte) (c : Bool) :
    v >>> 1 ||| (BitVec.ofBool c).setWidth 8 <<< 7 = BitVec.ofNat 8 (v.toNat / 2 + c.toNat * 128) := by
  have disjoint : v >>> 1 &&& (BitVec.ofBool c).setWidth 8 <<< 7 = 0 := by
    ext k hk
    by_cases top : k < 7
    · simp [top]
    · obtain rfl : k = 7 := by omega
      simp
  have carry : (BitVec.ofBool c).setWidth 8 <<< 7 = BitVec.ofNat 8 (c.toNat * 128) := by cases c <;> rfl
  rw [← BitVec.add_eq_or_of_and_eq_zero _ _ disjoint, ushiftRight_one_eq, carry, BitVec.ofNat_add]

theorem asl_computes : Computes asl fun v _ p =>
    let r := BitVec.ofNat 8 (v.toNat * 2)
    (r, { p with n := r.msb, z := r == 0, c := v.getLsbD 7 }) := by
  intro v s
  rw [asl, shiftLeft_one_eq]
  rfl

/-- A zero comes in at bit 7, so `N` is cleared (R193). -/
theorem lsr_computes : Computes lsr fun v _ p =>
    let r := BitVec.ofNat 8 (v.toNat / 2)
    (r, { p with n := false, z := r == 0, c := v.getLsbD 0 }) := by
  intro v s
  have positive : (BitVec.ofNat 8 (v.toNat / 2)).msb = false := by
    rw [← ushiftRight_one_eq, BitVec.msb_ushiftRight]
    rfl
  rw [lsr, ushiftRight_one_eq, State.setNZ, Flags.setNZ, positive]
  rfl

theorem rol_computes : Computes rol fun v _ p =>
    let r := BitVec.ofNat 8 (v.toNat * 2 + p.c.toNat)
    (r, { p with n := r.msb, z := r == 0, c := v.getLsbD 7 }) := by
  intro v s
  rw [rol, rotateLeft_carry_eq]
  rfl

theorem ror_computes : Computes ror fun v _ p =>
    let r := BitVec.ofNat 8 (v.toNat / 2 + p.c.toNat * 128)
    (r, { p with n := r.msb, z := r == 0, c := v.getLsbD 0 }) := by
  intro v s
  rw [ror, rotateRight_carry_eq]
  rfl

/-- Settles O34: each form is `asl` or `lsr` in memory or in the accumulator. -/
theorem shiftsAslLsr : Obligations.ShiftsAslLsr := by
  intro s d al ah quiet wf _ _ _
  refine ⟨?aslZp, ?aslAcc, ?aslAbs, ?aslZpx, ?aslAbsx, ?lsrZp, ?lsrAcc, ?lsrAbs, ?lsrZpx, ?lsrAbsx⟩
  case aslAcc => exact asl_computes.accumulator quiet rfl rfl
  case aslAbsx => exact asl_computes.memory quiet wf rfl rfl rfl (cycles_rmwShift_absx al ah s) nofun
  case aslZp | aslAbs | aslZpx => exact asl_computes.memory quiet wf rfl rfl rfl rfl nofun
  case lsrAcc => exact lsr_computes.accumulator quiet rfl rfl
  case lsrAbsx => exact lsr_computes.memory quiet wf rfl rfl rfl (cycles_rmwShift_absx al ah s) nofun
  all_goals exact lsr_computes.memory quiet wf rfl rfl rfl rfl nofun

/-- Settles O35: each form is `rol` or `ror` in memory or in the accumulator. -/
theorem rotatesRolRor : Obligations.RotatesRolRor := by
  intro s d al ah quiet wf _ _ _
  refine ⟨?rolZp, ?rolAcc, ?rolAbs, ?rolZpx, ?rolAbsx, ?rorZp, ?rorAcc, ?rorAbs, ?rorZpx, ?rorAbsx⟩
  case rolAcc => exact rol_computes.accumulator quiet rfl rfl
  case rolAbsx => exact rol_computes.memory quiet wf rfl rfl rfl (cycles_rmwShift_absx al ah s) nofun
  case rolZp | rolAbs | rolZpx => exact rol_computes.memory quiet wf rfl rfl rfl rfl nofun
  case rorAcc => exact ror_computes.accumulator quiet rfl rfl
  case rorAbsx => exact ror_computes.memory quiet wf rfl rfl rfl (cycles_rmwShift_absx al ah s) nofun
  all_goals exact ror_computes.memory quiet wf rfl rfl rfl rfl nofun

/-! ## Increments and decrements (R196 to R201) -/

theorem incByte_computes : Computes incByte fun v _ p => (v + 1, p.setNZ (v + 1)) := fun _ _ => rfl

theorem decByte_computes : Computes decByte fun v _ p => (v - 1, p.setNZ (v - 1)) := fun _ _ => rfl

/-- Settles O36: each form is `incByte` or `decByte` in memory or in the accumulator; in `ABSX` they always make the dead read
(R130), so no count depends on the page. -/
theorem incDecMemoryAndA : Obligations.IncDecMemoryAndA := by
  intro s d al ah quiet wf _ _ _
  refine ⟨?incAcc, ?incZp, ?incAbs, ?incZpx, ?incAbsx, ?decAcc, ?decZp, ?decAbs, ?decZpx, ?decAbsx⟩
  case incAcc => exact incByte_computes.accumulator quiet rfl rfl
  case incZp | incAbs | incZpx | incAbsx => exact incByte_computes.memory quiet wf rfl rfl rfl rfl nofun
  case decAcc => exact decByte_computes.accumulator quiet rfl rfl
  all_goals exact decByte_computes.memory quiet wf rfl rfl rfl rfl nofun

/-- Settles O37: the four are `incByte` and `decByte` on `X` and on `Y`. -/
theorem incDecIndexRegisters : Obligations.IncDecIndexRegisters := fun _ quiet =>
  ⟨incByte_computes.indexX quiet rfl rfl, incByte_computes.indexY quiet rfl rfl,
    decByte_computes.indexX quiet rfl rfl, decByte_computes.indexY quiet rfl rfl⟩

/-! ## Bits in memory (R202 to R205) -/

theorem tsb_computes : Computes tsb fun v a p => (v ||| a, { p with z := a &&& v == 0 }) := fun _ _ => rfl

theorem trb_computes : Computes trb fun v a p => (v &&& ~~~a, { p with z := a &&& v == 0 }) := fun _ _ => rfl

theorem rmb_computes (n : Fin 8) : Computes (rmb n) fun v _ p => (v &&& ~~~bitMask n, p) := fun _ _ => rfl

theorem smb_computes (n : Fin 8) : Computes (smb n) fun v _ p => (v ||| bitMask n, p) := fun _ _ => rfl

/-- Settles O38: each form is `tsb` or `trb` in memory. -/
theorem tsbTrbTestAndModify : Obligations.TsbTrbTestAndModify := by
  intro s d al ah quiet wf _ _ _
  refine ⟨?tsbZp, ?tsbAbs, ?trbZp, ?trbAbs⟩
  case tsbZp | tsbAbs => exact tsb_computes.memory quiet wf rfl rfl rfl rfl nofun
  all_goals exact trb_computes.memory quiet wf rfl rfl rfl rfl nofun

/-- `RMBn` with its opcode and its mask (R204). -/
theorem rmb_completes {s : State} (quiet : Quiet s) (wf : s.mem.wf = true) {i : Instr} {d op mask : Byte} (n : Fin 8)
    (hi : exec i s = complete (rmwInstr op (.zp d) .rmwShift (rmb n) s)) (hb : encode i = [op, d])
    (hmask : bitMask n = mask) : RmwCompletes s i [op, d] (.zp d) .rmwShift 5 (s.byteAt (zext d) &&& ~~~mask) s.p :=
  hmask ▸ (rmb_computes n).memory quiet wf hi hb rfl rfl nofun

/-- `SMBn` with its opcode and its mask (R205). -/
theorem smb_completes {s : State} (quiet : Quiet s) (wf : s.mem.wf = true) {i : Instr} {d op mask : Byte} (n : Fin 8)
    (hi : exec i s = complete (rmwInstr op (.zp d) .rmwShift (smb n) s)) (hb : encode i = [op, d])
    (hmask : bitMask n = mask) : RmwCompletes s i [op, d] (.zp d) .rmwShift 5 (s.byteAt (zext d) ||| mask) s.p :=
  hmask ▸ (smb_computes n).memory quiet wf hi hb rfl rfl nofun

/-- Settles O39: sixteen instances of `rmb` and `smb` in zero page, one for each bit. -/
theorem rmbSmbChangeOneBit : Obligations.RmbSmbChangeOneBit := fun _ _ quiet wf =>
  ⟨rmb_completes quiet wf 0 rfl rfl rfl, rmb_completes quiet wf 1 rfl rfl rfl, rmb_completes quiet wf 2 rfl rfl rfl,
    rmb_completes quiet wf 3 rfl rfl rfl, rmb_completes quiet wf 4 rfl rfl rfl, rmb_completes quiet wf 5 rfl rfl rfl,
    rmb_completes quiet wf 6 rfl rfl rfl, rmb_completes quiet wf 7 rfl rfl rfl,
    smb_completes quiet wf 0 rfl rfl rfl, smb_completes quiet wf 1 rfl rfl rfl, smb_completes quiet wf 2 rfl rfl rfl,
    smb_completes quiet wf 3 rfl rfl rfl, smb_completes quiet wf 4 rfl rfl rfl, smb_completes quiet wf 5 rfl rfl rfl,
    smb_completes quiet wf 6 rfl rfl rfl, smb_completes quiet wf 7 rfl rfl rfl⟩

end Sys2Proof.Machine
end

section
/-! PROOF. The statements of the family 44_stack_transfer_flag (R220 to R244). The effects are those of the push, pull and
implied templates. The commits rest on one fact about all instructions, said once: under a silent host each samples with
the flags from before it, the exceptions being those R331 to R333 name. With it, the instruction after `CLI` commits the IRQ. -/

namespace Sys2Proof.Machine

/-! ## What an instruction leaves for the next boundary (R331, R332) -/

/-- What decides how the host and the next boundary go on (R334, R404), but for the execution state: of these an instruction
under a silent host sets the commit alone. -/
structure Boundary where
  script : List (Moment × HostAct)
  stall : Nat
  pendReset : Bool
  committed : Commit

def State.boundary (s : State) : Boundary := ⟨s.script, s.stall, s.pendReset, s.committed⟩

/-- The action leaves what the sample taken in `s` leaves (R331). -/
def Samples (s : State) (a : Action) : Prop := a.run.boundary = s.sample.boundary

/-- `PHP` is the push template: the status byte of the cycle that writes it is the one of the flags before (R225). -/
theorem run_cyclesPhp (s : State) : (cyclesPhp s).run = (pushInstr 0x08 (·.p.statusByte true) s).run := rfl

section

variable {s : State} (quiet : Quiet s)
include quiet

theorem endOfInstruction_boundary : s.endOfInstruction.boundary = s.boundary := by
  rw [endOfInstruction_quiet quiet]
  split <;> rfl

theorem Samples.of_run {a : Action} {u : State} (hr : a.run = u.endOfInstruction) (hu : u.boundary = s.sample.boundary) :
    Samples s a := by
  have uQuiet : Quiet u := (congrArg Boundary.script hu).trans quiet
  rw [Samples, hr, endOfInstruction_boundary uQuiet, hu]

theorem samples_finish {u : State} (hu : u.boundary = s.sample.boundary) : Samples s (finish u) :=
  .of_run quiet rfl hu

theorem samples_read (op : Byte) (m : Mode) {f : Byte → State → State} (hf : ∀ v t, (f v t).boundary = t.boundary) :
    Samples s (readInstr op m f s) :=
  have ⟨_, run⟩ := run_readInstr quiet op m f
  .of_run quiet run (hf _ _)

theorem samples_decimal (op : Byte) (m : Mode) {f : Byte → State → State} (hf : ∀ v t, (f v t).boundary = t.boundary) :
    Samples s (decimalInstr op m f s) :=
  have ⟨_, run⟩ := run_decimalInstr quiet op m f
  .of_run quiet run (hf _ _)

theorem samples_store (op : Byte) (m : Mode) {v : State → Byte} (hm : ∀ d, m ≠ .imm d)
    (hv : ∀ l w c, v (s.spent l w c) = v s) : Samples s (storeInstr op m v s) :=
  have ⟨_, run⟩ := run_storeInstr quiet op m v hm hv
  .of_run quiet run rfl

theorem samples_implied (op : Byte) {f : State → State} (hf : ∀ t, (f t).boundary = t.boundary) :
    Samples s (impliedInstr op f s) :=
  have ⟨_, run⟩ := run_impliedInstr quiet op f
  .of_run quiet run (hf _)

theorem samples_push (op : Byte) {v : State → Byte} (hv : ∀ l w c, v (s.spent l w c) = v s) :
    Samples s (pushInstr op v s) :=
  have ⟨_, run⟩ := run_pushInstr quiet op v hv
  .of_run quiet run rfl

theorem samples_pull (op : Byte) {f : Byte → State → State} (hf : ∀ v t, (f v t).boundary = t.boundary) :
    Samples s (pullInstr op f s) :=
  have ⟨_, run⟩ := run_pullInstr quiet op f
  .of_run quiet run (hf _ _)

theorem samples_branch (op d : Byte) {taken : State → Bool} (hv : ∀ l w c, taken (s.spent l w c) = taken s) :
    Samples s (branchInstr op d taken s) :=
  have ⟨_, run⟩ := run_branchInstr quiet op d taken hv
  .of_run quiet run rfl

theorem samples_bitBranch (op : Byte) (n : Fin 8) (want : Bool) (zp rel : Byte) :
    Samples s (bitBranchInstr op n want zp rel s) :=
  have ⟨_, run⟩ := run_bitBranchInstr quiet op n want zp rel
  .of_run quiet run rfl

/-- The middle access of a read-modify-write (R190), whichever of the three it is, leaves what the sample reads as it was. -/
theorem samples_dummyWrite (ea : Word) (old : Byte) (l : List HostCall) (w : Word) (c : Ctx) {k : State → Action}
    (hk : ∀ t, t.sample.boundary = s.sample.boundary → Samples s (k t)) : Samples s (dummyWrite ea old (s.spent l w c) k) := by
  unfold Samples dummyWrite
  split
  · rw [run_spent_write quiet]
    exact hk _ rfl
  · rw [show (s.spent l w c).drawn = s.drawn.spent l w c from rfl, run_spent_write (by exact quiet)]
    exact hk _ rfl
  · rw [run_spent_idle quiet]
    exact hk _ rfl

theorem samples_rmw (op : Byte) (m : Mode) (kind : Kind) {f : Modify} (hf : ∀ v t, (f v t).2.boundary = t.boundary) :
    Samples s (rmwInstr op m kind f s) := by
  obtain ⟨c, run⟩ : ∃ c, (rmwInstr op m kind f s).run = _ := run_resolve quiet op m kind _
  rw [Samples, run, run_spent_read quiet, State.latchData_spent]
  refine samples_dummyWrite quiet _ _ _ _ _ fun t sampled => ?_
  have tQuiet : Quiet t := (congrArg Boundary.script sampled).trans quiet
  exact .of_run quiet (run_last_write tQuiet ..) ((hf _ _).trans sampled)

theorem samples_php : Samples s (cyclesPhp s) := by
  rw [Samples, run_cyclesPhp]
  exact samples_push quiet _ fun _ _ _ => rfl

/-- `BRK` samples before the flags change (R266). -/
theorem samples_takeInterrupt (vec : Word) {t : State} (ht : t.sample.boundary = s.sample.boundary) :
    Samples s (takeInterrupt true vec t) :=
  have tQuiet : Quiet t := (congrArg Boundary.script ht).trans quiet
  have ⟨_, run⟩ := run_takeInterrupt tQuiet true vec
  .of_run quiet run ht

/-- A silent host suppresses nothing, and the call of the hook is only recorded. -/
theorem samples_brk (sig : Byte) : Samples s (cyclesBrk sig s) := by
  rw [Samples, cyclesBrk, run_start_spent quiet, run_spent_fetch quiet, State.hookAnswer_quiet (by exact quiet),
    Bool.and_false, if_neg Bool.false_ne_true, State.callBrkHook]
  refine samples_takeInterrupt quiet _ ?_
  split <;> rfl

theorem samples_jsr (al ah : Byte) : Samples s (cyclesJsr al ah s) := by
  rw [Samples, cyclesJsr, run_start_spent quiet, run_spent_fetch quiet, run_spent_idle quiet, run_spent_push quiet,
    run_spent_push (by exact quiet), run_last_spent_read (by exact quiet)]
  exact samples_finish quiet rfl

theorem samples_jmpAbs (al ah : Byte) : Samples s (cyclesJmpAbs al ah s) := by
  rw [Samples, cyclesJmpAbs, run_start_spent quiet, run_spent_fetch quiet, run_last_spent_fetch quiet]
  exact samples_finish quiet rfl

theorem samples_jumpThrough (ptr : Word) (l : List HostCall) (w : Word) (c : Ctx) :
    Samples s (jumpThrough ptr (s.spent l w c)) :=
  have ⟨_, run⟩ := run_spent_jumpThrough quiet ptr
  .of_run quiet run rfl

theorem samples_jmpAbsi (al ah : Byte) : Samples s (cyclesJmpAbsi al ah s) := by
  rw [Samples, cyclesJmpAbsi, run_start_spent quiet, run_spent_fetchAbs quiet, State.latchAux_spent, run_spent_idle quiet]
  exact samples_jumpThrough quiet ..

theorem samples_jmpAbsxi (al ah : Byte) : Samples s (cyclesJmpAbsxi al ah s) := by
  rw [Samples, cyclesJmpAbsxi, run_start_spent quiet, run_spent_fetchAbs quiet, State.latchAux_spent, run_spent_idle quiet]
  exact samples_jumpThrough quiet ..

theorem samples_rts : Samples s (cyclesRts s) :=
  have ⟨_, run⟩ := run_cyclesRts quiet
  .of_run quiet run rfl

theorem samples_nop5C (al ah : Byte) : Samples s (cyclesNop5C al ah s) := by
  rw [Samples, cyclesNop5C, run_start_spent quiet, run_spent_fetch quiet, run_spent_fetch quiet, run_spent_idle quiet,
    run_spent_idle quiet, run_spent_idle quiet, run_spent_idle quiet, run_last_spent_read quiet]
  exact samples_finish quiet rfl

/-- Whether `WAI` stays awake changes the execution state alone. -/
theorem samples_wai : Samples s (cyclesWai s) := by
  rw [Samples, cyclesWai, run_start_spent quiet, run_spent_idle quiet, run_last_spent_read quiet]
  refine samples_finish quiet ?_
  split <;> rfl

end

theorem decimalOp_boundary (b : Sum) (r : Byte) (c : Bool) (m : Byte) (s : State) :
    (decimalOp b r c m s).boundary = s.boundary := by
  unfold decimalOp
  split
  · split <;> rfl
  · rfl

theorem adc_boundary (v : Byte) (s : State) : (adc v s).boundary = s.boundary := decimalOp_boundary ..

theorem sbc_boundary (v : Byte) (s : State) : (sbc v s).boundary = s.boundary := decimalOp_boundary ..

/-- Every instruction samples with the flags from before it, but for those of R331 to R333 that do not: the one-cycle
opcodes, `RTI` and `STP`. -/
theorem samples_cyclesOf {s : State} (quiet : Quiet s) {i : Instr} (one : isOneCycle i = false) (rti : i ≠ .rti)
    (stp : i ≠ .stp) : Samples s (cyclesOf i s) := by
  cases i
  case brk => exact samples_brk quiet _
  case php => exact samples_php quiet
  case jsr al ah => exact samples_jsr quiet al ah
  case jmpAbs => exact samples_jmpAbs quiet _ _
  case jmpAbsi => exact samples_jmpAbsi quiet _ _
  case jmpAbsxi => exact samples_jmpAbsxi quiet _ _
  case rts => exact samples_rts quiet
  case nop5C => exact samples_nop5C quiet _ _
  case wai => exact samples_wai quiet
  case rti => exact absurd rfl rti
  case stp => exact absurd rfl stp
  case nop03 | nop0B | nop13 | nop1B | nop23 | nop2B | nop33 | nop3B | nop43 | nop4B | nop53 | nop5B | nop63 | nop6B |
      nop73 | nop7B | nop83 | nop8B | nop93 | nop9B | nopA3 | nopAB | nopB3 | nopBB | nopC3 | nopD3 | nopE3 | nopEB |
      nopF3 | nopFB => cases one
  case bbr0 | bbr1 | bbr2 | bbr3 | bbr4 | bbr5 | bbr6 | bbr7 | bbs0 | bbs1 | bbs2 | bbs3 | bbs4 | bbs5 | bbs6 | bbs7 =>
    exact samples_bitBranch quiet ..
  case bpl | bmi | bvc | bvs | bra | bcc | bcs | bne | beq => exact samples_branch quiet _ _ fun _ _ _ => rfl
  case pha | phy | phx => exact samples_push quiet _ fun _ _ _ => rfl
  case plp | pla | ply | plx => exact samples_pull quiet _ fun _ _ => rfl
  case aslAcc | incAcc | rolAcc | decAcc | lsrAcc | rorAcc | dey | iny | dex | inx | clc | sec | cli | sei | txa | tya |
      txs | tay | tax | clv | tsx | cld | sed | nop => exact samples_implied quiet _ fun _ => rfl
  case stzZp | stzZpx | staZpxi | styZp | staZp | stxZp | styAbs | staAbs | stxAbs | staZpiy | staZpi | styZpx | staZpx |
      stxZpy | staAbsy | stzAbs | staAbsx | stzAbsx => exact samples_store quiet _ _ nofun fun _ _ _ => rfl
  case adcZpxi | adcZp | adcImm | adcAbs | adcZpiy | adcZpi | adcZpx | adcAbsy | adcAbsx =>
    exact samples_decimal quiet _ _ adc_boundary
  case sbcZpxi | sbcZp | sbcImm | sbcAbs | sbcZpiy | sbcZpi | sbcZpx | sbcAbsy | sbcAbsx =>
    exact samples_decimal quiet _ _ sbc_boundary
  case tsbZp | aslZp | rmb0 | tsbAbs | aslAbs | trbZp | aslZpx | rmb1 | trbAbs | aslAbsx | rolZp | rmb2 | rolAbs | rolZpx |
      rmb3 | rolAbsx | lsrZp | rmb4 | lsrAbs | lsrZpx | rmb5 | lsrAbsx | rorZp | rmb6 | rorAbs | rorZpx | rmb7 | rorAbsx |
      smb0 | smb1 | smb2 | smb3 | decZp | smb4 | decAbs | decZpx | smb5 | decAbsx | incZp | smb6 | incAbs | incZpx | smb7 |
      incAbsx => exact samples_rmw quiet _ _ _ fun _ _ => rfl
  all_goals exact samples_read quiet _ _ fun _ _ => rfl

theorem commits_sampled {s : State} (quiet : Quiet s) {i : Instr} (one : isOneCycle i = false) (rti : i ≠ .rti)
    (stp : i ≠ .stp) : Commits s i s.sampled := by
  intro t ht
  rw [complete_next ((exec_eq_cyclesOf i s).symm.trans ht)]
  exact congrArg Boundary.committed (samples_cyclesOf quiet one rti stp)

/-! ## The stack, transfers and flags (R222 to R244) -/

/-- Settles O40: each is the push template with its register or with the status byte. -/
theorem pushesStoreThenDecrement : Obligations.PushesStoreThenDecrement := fun s quiet wf =>
  ⟨push_completes quiet wf s.a rfl rfl (fun _ _ _ => rfl) rfl, push_completes quiet wf s.x rfl rfl (fun _ _ _ => rfl) rfl,
    push_completes quiet wf s.y rfl rfl (fun _ _ _ => rfl) rfl,
    push_completes quiet wf _ (congrArg Host.Outcome.next (run_cyclesPhp s)) rfl (fun _ _ _ => rfl) rfl⟩

/-- Settles O41: each is the pull template with its load. -/
theorem pullsIncrementThenRead : Obligations.PullsIncrementThenRead := by
  intro s quiet nz
  refine ⟨?pla, ?plx, ?ply⟩
  all_goals exact pull_completes quiet _ rfl rfl (fun _ _ _ _ _ => rfl) (fun _ => rfl) fun _ => ⟨rfl, rfl, rfl⟩

/-- Settles O42: the pull template with `SetStatus`, whose last cycle comes after the sample. -/
theorem plpRestoresStatus : Obligations.PlpRestoresStatus := fun _ quiet =>
  ⟨pull_completes quiet _ rfl rfl (fun _ _ _ _ _ => rfl) (fun _ => rfl) fun _ => ⟨rfl, rfl, rfl⟩,
    commits_sampled quiet rfl nofun nofun⟩

/-- Settles O43: each is the implied template with its transfer. -/
theorem transfersCopyRegisters : Obligations.TransfersCopyRegisters := by
  intro s quiet nz
  refine ⟨?tax, ?tay, ?txa, ?tya, ?tsx, ?txs⟩
  all_goals exact implied_completes quiet _ rfl rfl (fun _ _ _ _ => rfl) rfl ⟨rfl, rfl, rfl⟩

/-- Settles O44: each is the implied template with its flag. -/
theorem flagInstructionsSetOneFlag : Obligations.FlagInstructionsSetOneFlag := by
  intro s quiet old
  refine ⟨?clc, ?sec, ?cli, ?cliCommits, ?sei, ?seiCommits, ?cld, ?sed, ?clv⟩
  case cliCommits | seiCommits => exact commits_sampled quiet rfl nofun nofun
  all_goals exact implied_completes quiet _ rfl rfl (fun _ _ _ _ => rfl) rfl ⟨rfl, rfl, rfl⟩

/-! ## One more instruction after `CLI` (R240, R381) -/

theorem encode_length_le_three (i : Instr) : (encode i).length ≤ 3 := by
  have ok := decode_encode i []
  rw [List.append_nil] at ok
  generalize encode i = bytes at ok ⊢
  cases bytes with
  | nil => decide
  | cons opcode rest =>
    obtain ⟨-, taken⟩ := (decode_cons_ok_iff opcode rest []).1 ⟨i, ok⟩
    exact Nat.succ_le_succ ((List.drop_eq_nil_iff.1 taken.symm).trans (operandCount_le_two opcode))

/-- Bytes that stand at the program counter are the first the decoder sees (R66, R90). -/
theorem BytesAtPc.prefix_fetchBytes {s : State} (quiet : Quiet s) {bytes : List Byte} (here : BytesAtPc s bytes)
    (short : bytes.length ≤ 3) : bytes <+: s.fetchBytes := by
  rw [fetchBytes_quiet quiet, List.prefix_iff_getElem]
  refine ⟨short, fun n hn => ?_⟩
  rw [← here n hn]
  match n, hn.trans_le short with
  | 0, _ => rw [BitVec.ofNat_eq_ofNat, BitVec.add_zero]; rfl
  | 1, _ => rfl
  | 2, _ => rfl

/-- R334 line 7 and R100: an instruction whose bytes stand at the program counter is the one that runs. -/
theorem step_of_bytesAtPc {s : State} {i : Instr} (ready : AtInstruction s) (quiet : Quiet s)
    (bytes : BytesAtPc s (encode i)) : step s = exec i s := by
  obtain ⟨rest, fetched⟩ := bytes.prefix_fetchBytes quiet (encode_length_le_three i)
  rw [step_of_instruction ready, stepInstr, ← fetched, decode_encode]

/-- An instruction that samples an IRQ is followed by the IRQ's entry (R331, R334). -/
theorem exec_then_irq {s : State} (ready : AtInstruction s) (quiet : Quiet s) (sampled : s.sampled = .irq) {i : Instr}
    (one : isOneCycle i = false) (rti : i ≠ .rti) (stp : i ≠ .stp) :
    ∃ u, exec i s = .next u ∧ u.committed = .irq ∧ step u = complete (enter .irq u) := by
  obtain ⟨seen, unstalled, noReset, running, -⟩ := ready
  have leaves : (cyclesOf i s).run.boundary = s.sample.boundary := samples_cyclesOf quiet one rti stp
  have committed : (cyclesOf i s).run.committed = .irq := (congrArg Boundary.committed leaves).trans sampled
  refine ⟨_, exec_eq_cyclesOf i s, committed, ?_⟩
  obtain ⟨ended, -, same | ⟨clear, -⟩⟩ := (good_cyclesOf i s).run
  · exact step_of_irq (ended.resetSeen.trans seen) ((congrArg Boundary.stall leaves).trans unstalled)
      ((congrArg Boundary.pendReset leaves).trans noReset) (same.trans running) committed
  · exact nomatch committed.symm.trans clear

/-- Settles O56: the first sample falls before `CLI` clears `I`, the second sees it clear. -/
theorem cliLetsOneMoreInstructionRun : Obligations.CliLetsOneMoreInstructionRun := by
  intro s i ready quiet irq masked noNmi cliAt one rti stp nextAt
  obtain ⟨-, -, ⟨-, t, execCli, eff, -⟩, cliCommits, -⟩ := flagInstructionsSetOneFlag s quiet
  have stepCli : step s = .next t := (step_of_bytesAtPc (i := .cli) ready quiet cliAt).trans execCli
  obtain ⟨seen, unstalled, noReset, running, uncommitted⟩ := ready
  have tCommitted : t.committed = .none := by
    rw [cliCommits t execCli]
    simp [noNmi, masked, uncommitted]
  have tReady : AtInstruction t := by
    rw [eff]
    exact ⟨seen, unstalled, noReset, running, tCommitted⟩
  have tQuiet : Quiet t := by rw [eff]; exact quiet
  have tNextAt : BytesAtPc t (encode i) := by rw [eff]; exact nextAt
  have tSampled : t.sampled = .irq := by
    rw [State.sampled, eff]
    simp [State.irqMask, State.withRecord, State.after, noNmi, irq]
  obtain ⟨u, execNext, uCommitted, entry⟩ := exec_then_irq tReady tQuiet tSampled one rti stp
  refine ⟨t, u, stepCli, tCommitted, ?_, ?_, step_of_bytesAtPc tReady tQuiet tNextAt, execNext, uCommitted, entry⟩
  · rw [eff]; rfl
  · rw [eff]; rfl

end Sys2Proof.Machine
end

section
/-! PROOF. The statements of the family 45_control_transfer (R260 to R278). Branches and bit branches are instances of their
templates. Every other instruction is run once, to the state it leaves before the end-of-instruction point; the bytes
that `JSR` and `BRK` leave on the stack are facts about pushing a word. -/

namespace Sys2Proof.Machine

/-! ## Jumps (R260 to R262) -/

section

variable {s : State} (quiet : Quiet s) (al ah : Byte)
include quiet

theorem run_cyclesJmpAbs :
    ∃ c, (cyclesJmpAbs al ah s).run =
      (s.spentSampled [.read s.pc, .read (s.pc + 1), .read (s.pc + 2)] (word ah al) s.sampled c).endOfInstruction := by
  rw [cyclesJmpAbs, run_start_spent quiet, run_spent_fetch quiet, run_last_spent_fetch quiet, word_one_one]
  exact ⟨_, rfl⟩

/-- The cycles before an indirect jump reads its pointer: the operand, whose second byte is read once more (R134, R135). -/
theorem run_start_pointer (op : Byte) (k : Word → State → Action) :
    ∃ c, (start op s fun s => fetchAbs al ah s fun ptr s => idle (s.pc - 1) (s.latchAux ptr) (k ptr)).run =
      (k (word ah al) (s.spent [.read s.pc, .read (s.pc + 1), .read (s.pc + 2), .read (s.pc + 2)] (s.pc + 3) c)).run := by
  have past : s.pc + 1 + 2 = s.pc + 3 := BitVec.add_assoc s.pc 1 2
  rw [run_start_spent quiet, run_spent_fetchAbs quiet, State.latchAux_spent, run_spent_idle quiet, State.spent_pc,
    word_one_one, past, word_three_sub]
  exact ⟨_, rfl⟩

theorem run_cyclesJmpAbsi :
    ∃ c, (cyclesJmpAbsi al ah s).run =
      (s.spentSampled
        [.read s.pc, .read (s.pc + 1), .read (s.pc + 2), .read (s.pc + 2), .read (word ah al), .read (word ah al + 1)]
        (s.pointerAt (word ah al)) s.sampled c).endOfInstruction := by
  obtain ⟨_, run⟩ := run_start_pointer quiet al ah 0x6C jumpThrough
  rw [cyclesJmpAbsi, run]
  exact run_spent_jumpThrough quiet _

/-- `JMP (abs)` with `X` added to the pointer's address (R135). -/
theorem run_cyclesJmpAbsxi :
    ∃ c, (cyclesJmpAbsxi al ah s).run =
      (s.spentSampled
        [.read s.pc, .read (s.pc + 1), .read (s.pc + 2), .read (s.pc + 2), .read (word ah al + zext s.x),
          .read (word ah al + zext s.x + 1)]
        (s.pointerAt (word ah al + zext s.x)) s.sampled c).endOfInstruction := by
  obtain ⟨_, run⟩ := run_start_pointer quiet al ah 0x7C fun base s =>
    jumpThrough (indexed base s.x) (s.latchAux (indexed base s.x))
  rw [cyclesJmpAbsxi, run, State.latchAux_spent]
  exact run_spent_jumpThrough quiet _

end

/-- Settles O45: each jump's run, which changes nothing but `PC`. -/
theorem jumpsLoadPc : Obligations.JumpsLoadPc := by
  intro s al ah quiet ptr ptrx
  obtain ⟨_, direct⟩ := run_cyclesJmpAbs quiet al ah
  obtain ⟨_, indirect⟩ := run_cyclesJmpAbsi quiet al ah
  obtain ⟨_, indexedIndirect⟩ := run_cyclesJmpAbsxi quiet al ah
  exact ⟨completes_recorded rfl rfl quiet direct ⟨rfl, rfl, rfl⟩, completes_recorded rfl rfl quiet indirect ⟨rfl, rfl, rfl⟩,
    completes_recorded rfl rfl quiet indexedIndirect ⟨rfl, rfl, rfl⟩⟩

/-! ## A word on the stack (R77) -/

theorem Memory.read_write_ne (m : Memory) {a b : Word} (v : Byte) (ne : b ≠ a) :
    (Memory.write m a.toNat v).read b.toNat = m.read b.toNat :=
  Memory.read_write_other m v fun e => ne (BitVec.eq_of_toNat_eq e)

theorem onlyBytesChange_mem (s : State) : OnlyBytesChange s s.mem [] := fun _ _ => rfl

theorem OnlyBytesChange.write {s : State} {m : Memory} {as : List Word} (only : OnlyBytesChange s m as) (a : Word)
    (v : Byte) : OnlyBytesChange s (m.write a.toNat v) (as ++ [a]) := by
  intro b out
  obtain ⟨notBefore, notNew⟩ := not_or.1 (mt List.mem_append.2 out)
  rw [Memory.read_write_ne m v (mt List.mem_singleton.2 notNew), only b notBefore]

/-- The three bytes below the stack pointer, as addresses of the state (R23). -/
theorem stackBelow_differ (s : State) :
    s.stackAddr ≠ s.stackBelow 1 ∧ s.stackAddr ≠ s.stackBelow 2 ∧ s.stackBelow 1 ≠ s.stackBelow 2 :=
  stack_addresses_differ s.sp

/-- Memory after a word has been pushed, high byte first (R77). -/
def State.pushedMem (s : State) (w : Word) : Memory :=
  (s.mem.write s.stackAddr.toNat (hi8 w)).write (s.stackBelow 1).toNat (lo8 w)

theorem pushedMem_high {s : State} (wf : s.mem.wf = true) (w : Word) :
    (s.pushedMem w).read s.stackAddr.toNat = hi8 w := by
  obtain ⟨apart, -, -⟩ := stackBelow_differ s
  rw [State.pushedMem, Memory.read_write_ne _ _ apart, Memory.read_write_same _ _ wf]

theorem pushedMem_low {s : State} (wf : s.mem.wf = true) (w : Word) :
    (s.pushedMem w).read (s.stackBelow 1).toNat = lo8 w :=
  Memory.read_write_same _ _ (Memory.wf_write_word _ _ wf)

theorem pushedMem_wf {s : State} (wf : s.mem.wf = true) (w : Word) : (s.pushedMem w).wf = true :=
  Memory.wf_write_word _ _ (Memory.wf_write_word _ _ wf)

theorem pushedMem_only (s : State) (w : Word) : OnlyBytesChange s (s.pushedMem w) [s.stackAddr, s.stackBelow 1] :=
  ((onlyBytesChange_mem s).write _ _).write _ _

theorem interruptMem_eq (s : State) (ret : Word) (status : Byte) :
    s.interruptMem ret status = (s.pushedMem ret).write (s.stackBelow 2).toNat status := rfl

/-! ## Subroutines (R263, R264) -/

/-- The third byte is read from memory as the pushes have left it (R138). -/
theorem run_cyclesJsr {s : State} (quiet : Quiet s) (al ah : Byte) :
    ∃ c, (cyclesJsr al ah s).run =
      (({ s with mem := s.pushedMem (s.pc + 2), sp := s.sp - 2 } : State).spentSampled
        [.read s.pc, .read (s.pc + 1), .read s.stackAddr, .write s.stackAddr (hi8 (s.pc + 2)),
          .write (s.stackBelow 1) (lo8 (s.pc + 2)), .read (s.pc + 2)]
        (word ((s.pushedMem (s.pc + 2)).read (s.pc + 2).toNat) al) s.sampled c).endOfInstruction := by
  have lowered : s.sp - 2 = s.sp - 1 - 1 := (byte_sub_one_one s.sp).symm
  rw [cyclesJsr, run_start_spent quiet, run_spent_fetch quiet, run_spent_idle quiet, run_spent_push quiet,
    run_spent_push (by exact quiet), run_last_spent_read (by exact quiet), word_one_one, lowered]
  exact ⟨_, rfl⟩

/-- Settles O46: the run, and that its two stack bytes hold the pushed address. -/
theorem jsrPushesReturnAddress : Obligations.JsrPushesReturnAddress := by
  intro s al ah quiet wf ret m
  obtain ⟨_, run⟩ := run_cyclesJsr quiet al ah
  exact ⟨completes_recorded rfl rfl quiet run ⟨rfl, rfl, rfl⟩, pushedMem_high wf ret, pushedMem_low wf ret,
    pushedMem_only s ret⟩

/-- Settles O47: the run of `RTS`, whose last cycle has read at the address it pulled. -/
theorem rtsReturnsPastThePulledAddress : Obligations.RtsReturnsPastThePulledAddress := by
  intro s quiet ret
  obtain ⟨_, run⟩ := run_cyclesRts quiet
  exact completes_recorded rfl rfl quiet run ⟨rfl, rfl, rfl⟩

/-! ## The software interrupt and the return (R265, R266) -/

theorem commits_recorded {s e : State} {i : Instr} {a : Action} {pc : Word} {tr : List HostCall} {cc : Nat} {co : Commit}
    {c : Ctx} (hi : exec i s = complete a) (hr : a.run = (e.recorded pc tr cc co c).endOfInstruction)
    (quiet : Quiet e) : Commits s i co := by
  intro t ht
  rw [complete_next (hi.symm.trans ht), hr]
  exact congrArg Boundary.committed (endOfInstruction_boundary (s := e.recorded pc tr cc co c) quiet)

/-- Settles O48: the opcode fetch, then the shared return, which samples after `P` is restored. -/
theorem rtiRestoresStatusAndPc : Obligations.RtiRestoresStatusAndPc := by
  intro s quiet v
  obtain ⟨_, run⟩ := run_returnFromInterrupt (s := s) (l := [.read s.pc]) (w := s.pc + 1)
    (c := { Ctx.idle with active := true, opcode := 0x40, cycle := 2 }) quiet
  have run := (run_start_spent quiet 0x40 returnFromInterrupt).trans run
  exact ⟨completes_recorded (i := .rti) rfl rfl quiet run ⟨rfl, rfl, rfl⟩, commits_recorded (i := .rti) rfl run quiet⟩

/-- What a host with the `BRK` hook installed sees of it (R410). -/
def State.brkCalls (s : State) (sig : Byte) : List HostCall := if s.hooks.brk then [.brkHook sig] else []

/-- The hook's call is recorded, and it is no cycle. -/
theorem callBrkHook_spent (s : State) (sig : Byte) (l : List HostCall) (w : Word) (c : Ctx) :
    (s.spent l w c).callBrkHook sig =
      s.recorded w ((l ++ s.brkCalls sig).reverse ++ s.trace) (s.cycleCount + l.length) s.committed c := by
  unfold State.callBrkHook State.brkCalls
  rw [State.spent_hooks, List.reverse_append, List.append_assoc]
  split <;> rfl

/-- The shared path of `BRK` after cycles that changed `PC`, the record and the context alone. -/
theorem run_takeInterrupt_recorded {s : State} (quiet : Quiet s) (ret : Word) (l : List HostCall) (n : Nat) (c : Ctx)
    (vec : Word) :
    ∃ c', (takeInterrupt true vec (s.recorded ret (l.reverse ++ s.trace) n s.committed c)).run =
      ((s.interrupted ret (s.p.statusByte true) vec).recorded (s.interrupted ret (s.p.statusByte true) vec).pc
        ((l ++ s.interruptCalls ret (s.p.statusByte true) vec).reverse ++ s.trace) (n + 5) s.sampled
        c').endOfInstruction := by
  rw [List.reverse_append, List.append_assoc]
  exact run_takeInterrupt (s := s.recorded ret (l.reverse ++ s.trace) n s.committed c) quiet true vec

/-- Two fetches, the hook, which a silent host does not use to suppress `BRK`, then the shared path (R266). -/
theorem run_cyclesBrk {s : State} (quiet : Quiet s) (sig : Byte) :
    ∃ c, (cyclesBrk sig s).run =
      ((s.interrupted (s.pc + 2) (s.p.statusByte true) Config.vecIrq).recorded
        (s.interrupted (s.pc + 2) (s.p.statusByte true) Config.vecIrq).pc
        (([HostCall.read s.pc, .read (s.pc + 1)] ++ s.brkCalls sig ++
          s.interruptCalls (s.pc + 2) (s.p.statusByte true) Config.vecIrq).reverse ++ s.trace)
        (s.cycleCount + 7) s.sampled c).endOfInstruction := by
  rw [cyclesBrk, run_start_spent quiet, run_spent_fetch quiet, State.hookAnswer_quiet (by exact quiet), Bool.and_false,
    if_neg Bool.false_ne_true, callBrkHook_spent, word_one_one]
  exact run_takeInterrupt_recorded quiet ..

/-- Settles O49: the run, and that its three stack bytes hold the pushed address and status. -/
theorem brkTakesTheSoftwareInterrupt : Obligations.BrkTakesTheSoftwareInterrupt := by
  intro s sig quiet wf ret p hook
  obtain ⟨_, run⟩ := run_cyclesBrk quiet sig
  obtain ⟨-, highApart, lowApart⟩ := stackBelow_differ s
  refine ⟨completes_recorded rfl rfl quiet run ⟨rfl, rfl, rfl⟩, commits_recorded rfl run quiet, ?high, ?low, ?status,
    ?only⟩
  case high => rw [interruptMem_eq, Memory.read_write_ne _ _ highApart, pushedMem_high wf]
  case low => rw [interruptMem_eq, Memory.read_write_ne _ _ lowApart, pushedMem_low wf]
  case status => exact Memory.read_write_same _ _ (pushedMem_wf wf ret)
  case only => exact (pushedMem_only s ret).write _ _

/-! ## Branches (R268 to R278) -/

/-- Settles O50: nine instances of the branch template, one for each condition. -/
theorem branchesFollowTheirFlag : Obligations.BranchesFollowTheirFlag := by
  intro s d quiet
  refine ⟨?bpl, ?bmi, ?bvc, ?bvs, ?bcc, ?bcs, ?bne, ?beq, ?bra⟩
  all_goals exact branch_completes quiet rfl rfl (fun _ _ _ => rfl) rfl

section

variable {s : State} (quiet : Quiet s) {i : Instr} {op zp rel : Byte} (n : Fin 8)
include quiet

/-- `BBRn` (R277). -/
theorem bbr_completes (hi : exec i s = complete (bitBranchInstr op n false zp rel s)) (hb : encode i = [op, zp, rel]) :
    BitBranchCompletes s i op zp rel (!(s.byteAt (zext zp)).getLsbD n) :=
  bitBranch_completes quiet hi hb Bool.decide_eq_false

/-- `BBSn` (R278). -/
theorem bbs_completes (hi : exec i s = complete (bitBranchInstr op n true zp rel s)) (hb : encode i = [op, zp, rel]) :
    BitBranchCompletes s i op zp rel ((s.byteAt (zext zp)).getLsbD n) :=
  bitBranch_completes quiet hi hb Bool.decide_eq_true

end

/-- Settles O51: sixteen instances of the bit-branch template, one for each bit and its value. -/
theorem bitBranchesTestOneBit : Obligations.BitBranchesTestOneBit := fun _ _ _ quiet =>
  ⟨bbr_completes quiet 0 rfl rfl, bbr_completes quiet 1 rfl rfl, bbr_completes quiet 2 rfl rfl,
    bbr_completes quiet 3 rfl rfl, bbr_completes quiet 4 rfl rfl, bbr_completes quiet 5 rfl rfl,
    bbr_completes quiet 6 rfl rfl, bbr_completes quiet 7 rfl rfl,
    bbs_completes quiet 0 rfl rfl, bbs_completes quiet 1 rfl rfl, bbs_completes quiet 2 rfl rfl,
    bbs_completes quiet 3 rfl rfl, bbs_completes quiet 4 rfl rfl, bbs_completes quiet 5 rfl rfl,
    bbs_completes quiet 6 rfl rfl, bbs_completes quiet 7 rfl rfl⟩

end Sys2Proof.Machine
end

section
/-! PROOF. The statements of the family 46_system_nop (R300 to R308). `NOP` is the implied template and most reserved
opcodes that read are the read template, both without an effect; the one-cycle opcodes, which end without a sample, have one
lemma. $5C, `WAI` and `STP` are each run once, to the state they leave before the end-of-instruction point. -/

namespace Sys2Proof.Machine

/-! ## NOP and the reserved opcodes (R300, R303 to R308) -/

section

variable {s : State} (quiet : Quiet s) {i : Instr} {op : Byte}
include quiet

/-- A one-cycle opcode fetches itself and does not sample (R303, R333). -/
theorem oneCycle_completes (hi : exec i s = complete (start op s finish)) (hb : encode i = [op]) :
    Completes s i [op] [.read s.pc] 1 (s.after [op]) ∧ Commits s i s.committed := by
  have run := run_start_spent quiet op finish
  exact ⟨completes_recorded (e := s) hi hb quiet run ⟨rfl, rfl, rfl⟩, commits_recorded (e := s) hi run quiet⟩

/-- A reserved opcode that drops the byte it reads (R304 to R307). -/
theorem ignore_completes {bytes : List Byte} {m : Mode} {n : Nat} (hi : exec i s = complete (readInstr op m ignore s))
    (hb : encode i = bytes) (hl : s.pc + BitVec.ofNat 16 bytes.length = m.pcNext s.pc)
    (hn : m.resolverCycles .read s + 2 = n) : ReadCompletes s i bytes m n fun _ => s :=
  read_completes quiet _ hi hb hl hn (fun _ _ _ _ => rfl) rfl ⟨rfl, rfl, rfl⟩

omit i op in
theorem run_cyclesNop5C (al ah : Byte) :
    ∃ c, (cyclesNop5C al ah s).run =
      (s.spentSampled
        [.read s.pc, .read (s.pc + 1), .read (s.pc + 2), .read (word 0xFF al), .read 0xFFFF, .read 0xFFFF, .read 0xFFFF,
          .read 0xFFFF] (s.pc + 3) s.sampled c).endOfInstruction := by
  rw [cyclesNop5C, run_start_spent quiet, run_spent_fetch quiet, word_one_one, run_spent_fetch quiet, word_two_one,
    run_spent_idle quiet, run_spent_idle quiet, run_spent_idle quiet, run_spent_idle quiet, run_last_spent_read quiet]
  exact ⟨_, rfl⟩

end

/-- Settles O52: the implied template, the read template and the one-cycle opcodes, all without an effect, and the run of
$5C. -/
theorem nopAndReservedOpcodesOnlyAdvance : Obligations.NopAndReservedOpcodesOnlyAdvance := by
  intro s d al ah quiet old one two
  refine ⟨?nop, ?nopCommits, ?nop02, ?_, ?_, ?_, ?_, ?nop22, ?_, ?_, ?_, ?_, ?nop42, ?_, ?nop44, ?_, ?_, ?nop54, ?_, ?nop5C,
    ?nop62, ?_, ?_, ?_, ?_, ?nop82, ?_, ?_, ?_, ?_, ?_, ?_, ?_, ?_, ?nopC2, ?_, ?_, ?nopD4, ?nopDC, ?nopE2, ?_, ?_, ?_,
    ?nopF4, ?_, ?nopFC⟩
  case nop => exact implied_completes quiet _ rfl rfl (fun _ _ _ _ => rfl) rfl ⟨rfl, rfl, rfl⟩
  case nopCommits => exact commits_sampled quiet rfl nofun nofun
  case nop5C =>
    obtain ⟨_, run⟩ := run_cyclesNop5C quiet al ah
    exact completes_recorded rfl rfl quiet run ⟨rfl, rfl, rfl⟩
  case nop02 | nop22 | nop42 | nop62 | nop82 | nopC2 | nopE2 => exact ignore_completes (m := .imm d) quiet rfl rfl rfl rfl
  case nop44 | nop54 | nopD4 | nopDC | nopF4 | nopFC => exact ignore_completes quiet rfl rfl rfl rfl
  all_goals exact oneCycle_completes quiet rfl rfl

/-! ## WAI (R301) -/

/-- A RESET, an NMI or an IRQ that `P.I` does not mask is pending: what keeps `WAI` awake (R301). -/
def State.unmaskedRequest (s : State) : Bool := s.pendReset || s.pendNmi || (s.irqLine && !s.p.i)

/-- Where nothing was committed before, a commit by `WAI`'s own sample is a request that keeps it awake anyway (log entry 7). -/
theorem staysAwake_spentSampled {s : State} (uncommitted : s.committed = .none) (l : List HostCall) (w : Word) (c : Ctx) :
    (s.spentSampled l w s.sampled c).staysAwake = s.unmaskedRequest := by
  change (s.unmaskedRequest || s.sampled != .none) = s.unmaskedRequest
  unfold State.sampled State.unmaskedRequest State.irqMask
  rw [uncommitted]
  cases s.pendNmi
  · cases s.irqLine && !s.p.i <;> simp
  · simp

/-- What `WAI` makes of a running core (R301). -/
def State.afterWai (s : State) : State := { s with execState := if s.unmaskedRequest then .running else .waiting }

theorem run_cyclesWai {s : State} (quiet : Quiet s) (uncommitted : s.committed = .none) (running : s.execState = .running) :
    ∃ c, (cyclesWai s).run =
      (s.afterWai.spentSampled [.read s.pc, .read (s.pc + 1), .read (s.pc + 1)] (s.pc + 1) s.sampled c).endOfInstruction := by
  rw [cyclesWai, run_start_spent quiet, run_spent_idle quiet, run_last_spent_read quiet, staysAwake_spentSampled uncommitted,
    State.afterWai]
  cases s.unmaskedRequest
  · exact ⟨_, rfl⟩
  · rw [if_pos rfl, if_pos rfl, ← running]
    exact ⟨_, rfl⟩

/-- Settles O53: the run, and the sample of an instruction from a boundary where nothing is committed. -/
theorem waiWaitsUnlessARequestIsUnmasked : Obligations.WaiWaitsUnlessARequestIsUnmasked := by
  intro s quiet uncommitted running awake
  obtain ⟨_, run⟩ := run_cyclesWai quiet uncommitted running
  refine ⟨completes_recorded (e := s.afterWai) rfl rfl quiet run ⟨rfl, rfl, rfl⟩, ?commits⟩
  rw [← uncommitted]
  exact commits_sampled quiet rfl nofun nofun

/-! ## STP (R302) -/

/-- What a host with the `STP` hook installed sees of it (R410). -/
def State.stpCalls (s : State) : List HostCall := if s.hooks.stp then [.stpHook] else []

/-- The hook's call is recorded, and it is no cycle. -/
theorem callStpHook_spentSampled (s : State) (l : List HostCall) (w : Word) (co : Commit) (c : Ctx) :
    (s.spentSampled l w co c).callStpHook =
      s.recorded w ((l ++ s.stpCalls).reverse ++ s.trace) (s.cycleCount + l.length) co c := by
  have hooks : (s.spentSampled l w co c).hooks = s.hooks := rfl
  unfold State.callStpHook State.stpCalls
  rw [hooks, List.reverse_append, List.append_assoc]
  split <;> rfl

/-- A silent host does not use the hook to suppress `STP`; halting drops what the sample committed (log entry 8). -/
theorem run_cyclesStp {s : State} (quiet : Quiet s) :
    ∃ c, (cyclesStp s).run =
      (({ s with execState := .stopped } : State).recorded (s.pc + 1)
        (([HostCall.read s.pc, .read (s.pc + 1), .read (s.pc + 1)] ++ s.stpCalls).reverse ++ s.trace) (s.cycleCount + 3) .none
        c).endOfInstruction := by
  rw [cyclesStp, run_start_spent quiet, run_spent_idle quiet, run_last_spent_read quiet,
    State.hookAnswer_quiet (by exact quiet), Bool.and_false, callStpHook_spentSampled]
  exact ⟨_, rfl⟩

/-- Settles O54: the run, which leaves the core halted. -/
theorem stpStopsTheCore : Obligations.StpStopsTheCore := by
  intro s quiet
  obtain ⟨_, run⟩ := run_cyclesStp quiet
  exact ⟨completes_recorded (e := { s with execState := .stopped }) rfl rfl quiet run ⟨rfl, rfl, rfl⟩,
    commits_recorded rfl run quiet⟩

end Sys2Proof.Machine
end

section
/-! PROOF. The statements of the family 60_exceptions (R320 to R346). The boundary actions (RESET, an entry, a stopped and a
waiting cycle) are each one run and the step that performs it. The sample of every instruction is that of the stack
family, the one-cycle opcodes added. Last comes a host that makes one scripted act, inside the access of one cycle. -/

namespace Sys2Proof.Machine

/-! ## Host events and setters (R322 to R324, R408) -/

theorem hostSet_between {s : State} (idle : s.ctx.active = false) (set : State → State) : s.hostSet set = .next (set s) := by
  rw [State.hostSet, idle, if_neg Bool.false_ne_true]

/-- In the middle of an action a setter is refused (D23). -/
theorem hostSet_active {s : State} (busy : s.ctx.active = true) (set : State → State) :
    s.hostSet set = .refused .setterMidInstruction := by
  rw [State.hostSet, busy, if_pos rfl]

/-- Settles O60: the events and the setters are what their definitions say, and a requested RESET is line 2 of R334. -/
theorem hostEventsAndSetters : Obligations.HostEventsAndSetters := by
  intro s n v w
  refine ⟨rfl, rfl, rfl, rfl, rfl, rfl, rfl, beq_iff_eq, beq_iff_eq, ?reset, ?between, ?active⟩
  case reset => exact fun unstalled => step_of_reset (s := s.requestReset) unstalled rfl
  case between =>
    intro idle
    exact ⟨hostSet_between idle _, hostSet_between idle _, hostSet_between idle _, hostSet_between idle _,
      hostSet_between idle _, hostSet_between idle _⟩
  case active =>
    intro busy
    exact ⟨hostSet_active busy _, hostSet_active busy _, hostSet_active busy _, hostSet_active busy _,
      hostSet_active busy _, hostSet_active busy _⟩

/-! ## RESET (R340) -/

/-- Settles O2: the run of the RESET sequence, as the step that line 2 of R334 makes of it. -/
theorem resetSequenceEffect : Obligations.ResetSequenceEffect := by
  intro s quiet unstalled pending
  obtain ⟨_, run⟩ := run_resetSequence quiet
  exact steps_recorded (step_of_reset unstalled pending) run quiet rfl rfl

/-! ## Stopped and waiting cycles (R345, R346) -/

/-- A boundary action of one idle cycle reads `PC` and reaches no end-of-instruction point. -/
theorem steps_idleCycle {s e : State} {a : Action} {co : Commit} (hs : step s = complete a)
    (hr : a.run = e.recorded e.pc (.read s.pc :: s.trace) (s.cycleCount + 1) co Ctx.idle) (hk : e.instrCount = s.instrCount) :
    Steps s [.read s.pc] 1 0 co e := by
  refine ⟨_, hs, ?_⟩
  rw [hr]
  exact ⟨rfl, rfl, rfl, hk, rfl, rfl⟩

theorem run_stoppedCycle_quiet {s : State} (quiet : Quiet s) :
    (stoppedCycle s).run = s.recorded s.pc (.read s.pc :: s.trace) (s.cycleCount + 1) s.committed Ctx.idle := by
  rw [run_stoppedCycle, idled_quiet quiet]
  rfl

/-- Settles O6: line 3 of R334 is the stopped cycle, line 2 is RESET, after which the core runs. -/
theorem stoppedCycleEffect : Obligations.StoppedCycleEffect := by
  intro s quiet seen unstalled stopped
  refine ⟨?noReset, ?reset, rfl, rfl, rfl⟩
  case noReset =>
    intro noReset
    exact steps_idleCycle (step_of_stopped seen unstalled noReset stopped) (run_stoppedCycle_quiet quiet) rfl
  case reset =>
    intro pending
    obtain ⟨t, stepped, eff, -⟩ := resetSequenceEffect s quiet unstalled pending
    exact ⟨t, stepped, by rw [eff]; rfl⟩

/-- Nothing asserted: the wait goes on (R345). -/
theorem run_waitingCycle_asleep {s : State} (quiet : Quiet s) (asleep : s.wakes = false) :
    (waitingCycle s).run = s.recorded s.pc (.read s.pc :: s.trace) (s.cycleCount + 1) s.committed Ctx.idle := by
  have asleep : ((s.begin 0).tally (.read s.pc)).wakes = false := asleep
  rw [run_waitingCycle, idled_quiet quiet, asleep, if_neg Bool.false_ne_true]
  rfl

/-- A request, masked or not, ends the wait and is sampled (R331, R345). -/
theorem run_waitingCycle_wakes {s : State} (quiet : Quiet s) (wakes : s.wakes = true) :
    (waitingCycle s).run =
      ({ s with execState := .running } : State).recorded s.pc (.read s.pc :: s.trace) (s.cycleCount + 1) s.sampled
        Ctx.idle := by
  have wakes : ((s.begin 0).tally (.read s.pc)).wakes = true := wakes
  rw [run_waitingCycle, idled_quiet quiet, wakes, if_pos rfl]
  rfl

theorem sampled_of_nmi {s : State} (nmi : s.pendNmi = true) : s.sampled = .nmi := by
  rw [State.sampled, nmi, if_pos rfl]

theorem sampled_of_noNmi {s : State} (noNmi : s.pendNmi = false) :
    s.sampled = if s.irqLine && s.irqMask then .irq else s.committed := by
  rw [State.sampled, noNmi, if_neg Bool.false_ne_true]

/-- Settles O7: the waiting cycle with nothing asserted, and with something that ends the wait. -/
theorem waitingCycleEffect : Obligations.WaitingCycleEffect := by
  intro s quiet ready waiting uncommitted
  obtain ⟨seen, unstalled, noReset⟩ := ready
  have stepped := step_of_waiting seen unstalled noReset waiting
  have steps_wakes (wakes : s.wakes = true) : Steps s [.read s.pc] 1 0 s.sampled { s with execState := .running } :=
    steps_idleCycle stepped (run_waitingCycle_wakes quiet wakes) rfl
  refine ⟨?asleep, ?nmi, ?irq⟩
  case asleep =>
    intro noNmi noIrq
    rw [← uncommitted]
    exact steps_idleCycle stepped (run_waitingCycle_asleep quiet (by simp [State.wakes, noReset, noNmi, noIrq])) rfl
  case nmi =>
    intro nmi
    rw [← sampled_of_nmi nmi]
    exact steps_wakes (by simp [State.wakes, nmi])
  case irq =>
    intro noNmi irq
    have sampled : s.sampled = if s.p.i then .none else .irq := by
      rw [sampled_of_noNmi noNmi, irq, uncommitted, State.irqMask]
      cases s.p.i <;> rfl
    rw [← sampled]
    exact steps_wakes (by simp [State.wakes, irq])

/-! ## Interrupt entry and the return from it (R335, R336, R339) -/

section

variable {s : State} (wf : s.mem.wf = true) (ret : Word) (status : Byte)

theorem interruptMem_only :
    OnlyBytesChange s (s.interruptMem ret status) [s.stackAddr, s.stackBelow 1, s.stackBelow 2] :=
  (pushedMem_only s ret).write _ _

include wf

theorem interruptMem_high : (s.interruptMem ret status).read s.stackAddr.toNat = hi8 ret := by
  obtain ⟨-, apart, -⟩ := stackBelow_differ s
  rw [interruptMem_eq, Memory.read_write_ne _ _ apart, pushedMem_high wf]

theorem interruptMem_low : (s.interruptMem ret status).read (s.stackBelow 1).toNat = lo8 ret := by
  obtain ⟨-, -, apart⟩ := stackBelow_differ s
  rw [interruptMem_eq, Memory.read_write_ne _ _ apart, pushedMem_low wf]

theorem interruptMem_status : (s.interruptMem ret status).read (s.stackBelow 2).toNat = status :=
  Memory.read_write_same _ _ (pushedMem_wf wf ret)

end

/-- Settles O8: the run of an entry, for each of the two kinds. -/
theorem interruptEntryEffect : Obligations.InterruptEntryEffect := by
  intro s quiet ready running wf p
  obtain ⟨seen, unstalled, noReset⟩ := ready
  refine ⟨?nmi, ?irq, interruptMem_only s.pc p⟩
  case nmi =>
    intro committed
    obtain ⟨_, run⟩ := run_enter quiet .nmi
    exact steps_recorded (e := { s.interrupted s.pc p 0xFFFA with pendNmi := false })
      (step_of_nmi seen unstalled noReset running committed) run quiet rfl rfl
  case irq =>
    intro committed
    obtain ⟨_, run⟩ := run_enter quiet .irq
    exact steps_recorded (e := s.interrupted s.pc p 0xFFFE)
      (step_of_irq seen unstalled noReset running committed) run quiet rfl rfl

/-- What either entry leaves for the return: `S` and the stack. -/
theorem step_entry_stack {s t : State} (quiet : Quiet s) (ready : NoStallOrReset s) (running : s.execState = .running)
    (committed : s.committed ≠ .none) (wf : s.mem.wf = true) (stepped : step s = .next t) :
    t.sp = s.sp - 3 ∧ t.mem = s.interruptMem s.pc (s.p.statusByte false) := by
  obtain ⟨nmi, irq, -⟩ := interruptEntryEffect s quiet ready running wf
  cases kind : s.committed with
  | none => exact absurd kind committed
  | nmi =>
    obtain ⟨t', stepped', eff, -⟩ := nmi kind
    obtain rfl := Host.Outcome.next.inj (stepped'.symm.trans stepped)
    rw [eff]
    exact ⟨rfl, rfl⟩
  | irq =>
    obtain ⟨t', stepped', eff, -⟩ := irq kind
    obtain rfl := Host.Outcome.next.inj (stepped'.symm.trans stepped)
    rw [eff]
    exact ⟨rfl, rfl⟩

/-- The three bytes above a stack pointer that three pushes have lowered are the bytes pushed. -/
theorem stackAbove_of_pushed {s u : State} (lowered : u.sp = s.sp - 3) :
    u.stackAbove 1 = s.stackBelow 2 ∧ u.stackAbove 2 = s.stackBelow 1 ∧ u.stackAbove 3 = s.stackAddr := by
  have one : s.sp - 3 + 1 = s.sp - 2 := by bv_omega
  have two : s.sp - 3 + 2 = s.sp - 1 := by bv_omega
  have three : s.sp - 3 + 3 = s.sp := BitVec.sub_add_cancel ..
  unfold State.stackAbove State.stackBelow State.stackAddr
  rw [lowered, one, two, three]
  exact ⟨rfl, rfl, rfl⟩

/-- A pushed status byte restores the flags it was made of, whatever its `B` (R26 to R28). -/
theorem Flags.ofByte_statusByte (p : Flags) (b : Bool) : Flags.ofByte (p.statusByte b) = p := by
  obtain ⟨n, v, d, i, z, c⟩ := p
  revert n v b d i z c
  decide

theorem word_hi8_lo8 (w : Word) : word (hi8 w) (lo8 w) = w := by
  unfold word hi8 lo8
  have glued : w.extractLsb' 8 8 ++ w.extractLsb' 0 8 = w.extractLsb' 0 16 :=
    BitVec.extractLsb'_append_extractLsb'_eq_extractLsb' rfl
  exact glued.trans BitVec.extractLsb'_eq_self

/-- `RTI` over the bytes that an interrupt of `s` has pushed (R265, R336). -/
theorem rti_resumes {s u : State} (quiet : Quiet u) (lowered : u.sp = s.sp - 3)
    (status : u.byteAt (s.stackBelow 2) = s.p.statusByte false) (low : u.byteAt (s.stackBelow 1) = lo8 s.pc)
    (high : u.byteAt s.stackAddr = hi8 s.pc) :
    ∃ w, exec .rti u = .next w ∧ w.pc = s.pc ∧ w.sp = s.sp ∧ w.p = s.p := by
  obtain ⟨⟨-, w, done, eff, -⟩, -⟩ := rtiRestoresStatusAndPc u quiet
  obtain ⟨first, second, third⟩ := stackAbove_of_pushed lowered
  rw [first, second, third, status, low, high, lowered, word_hi8_lo8, BitVec.sub_add_cancel] at eff
  refine ⟨w, done, ?_⟩
  rw [eff]
  exact ⟨rfl, rfl, s.p.ofByte_statusByte false⟩

/-- Settles O57: the entry's three bytes, read back by `RTI`. -/
theorem returnResumesTheInterruptedProgram : Obligations.ReturnResumesTheInterruptedProgram := by
  intro s t u quiet ready running committed wf stepped uQuiet sameSp sameBytes
  obtain ⟨lowered, mem⟩ := step_entry_stack quiet ready running committed wf stepped
  obtain ⟨first, second, third⟩ := stackAbove_of_pushed lowered
  have pushed (a : Word) : t.byteAt a = (s.interruptMem s.pc (s.p.statusByte false)).read a.toNat :=
    congrArg (Memory.read · a.toNat) mem
  have status := sameBytes 1 (by decide)
  have low := sameBytes 2 (by decide)
  have high := sameBytes 3 (by decide)
  rw [first, pushed, interruptMem_status wf] at status
  rw [second, pushed, interruptMem_low wf] at low
  rw [third, pushed, interruptMem_high wf] at high
  exact rti_resumes uQuiet (sameSp.trans lowered) status low high

/-! ## Every instruction (R320, R331 to R333, R411) -/

/-- Settles O15: what holds of every instruction's action under every script. -/
theorem everyInstructionCompletesUnderEveryHost : Obligations.EveryInstructionCompletesUnderEveryHost := by
  intro i s
  obtain ⟨ended, ⟨atLeast, atMost⟩, -⟩ := (good_cyclesOf i s).run
  have cycles := ended.cycleCount
  exact ⟨_, exec_eq_cyclesOf i s, ended.ctx, ended.instrCount, by omega, by omega, ended.script, ended.hooks, ended.params,
    ended.resetSeen⟩

/-- The one-cycle opcodes end with their first cycle (R303). -/
theorem cyclesOf_of_isOneCycle {i : Instr} (one : isOneCycle i = true) (s : State) :
    ∃ opcode, cyclesOf i s = start opcode s finish := by
  cases i
  case nop03 | nop0B | nop13 | nop1B | nop23 | nop2B | nop33 | nop3B | nop43 | nop4B | nop53 | nop5B | nop63 | nop6B |
      nop73 | nop7B | nop83 | nop8B | nop93 | nop9B | nopA3 | nopAB | nopB3 | nopBB | nopC3 | nopD3 | nopE3 | nopEB |
      nopF3 | nopFB => exact ⟨_, rfl⟩
  all_goals cases one

/-- A one-cycle opcode has no sample (R333). -/
theorem commits_of_isOneCycle {s : State} (quiet : Quiet s) {i : Instr} (one : isOneCycle i = true) :
    Commits s i s.committed := by
  obtain ⟨opcode, cycles⟩ := cyclesOf_of_isOneCycle one s
  have arm : exec i s = complete (start opcode s finish) := cycles ▸ exec_eq_cyclesOf i s
  exact commits_recorded (e := s) arm (run_start_spent quiet opcode finish) quiet

/-- Settles O55: the one-cycle opcodes, `RTI` and `STP`, then every other instruction at once. -/
theorem instructionSampleCommits : Obligations.InstructionSampleCommits := by
  intro i s quiet
  unfold commitAfter
  split
  case isTrue one => exact commits_of_isOneCycle quiet one
  case isFalse notOne =>
    have notOne : isOneCycle i = false := Bool.eq_false_iff.2 notOne
    split
    · obtain ⟨-, commits⟩ := rtiRestoresStatusAndPc s quiet
      exact commits
    · obtain ⟨-, commits⟩ := stpStopsTheCore s quiet
      exact commits
    · next rti stp => exact commits_sampled quiet notOne rti stp

/-! ## One act, inside the access of one cycle (R63, R331, R404) -/

/-- The host's only act is `act`, in the access that brings the cycle counter to `m`. -/
def ActsOnce (m : Nat) (act : HostAct) (s : State) : Prop := s.script = [(.cycle m, act)]

section

variable {m : Nat} {act : HostAct} {s : State} (once : ActsOnce m act s)
include once

theorem ActsOnce.actsAt_cycle (k : Nat) : s.actsAt (.cycle k) = if m = k then [act] else [] := by
  rw [State.actsAt, once]
  by_cases now : m = k
  · simp [now]
  · simp [now]

theorem ActsOnce.actsAt_endOfInstruction (k : Nat) : s.actsAt (.endOfInstruction k) = [] := by
  rw [State.actsAt, once]
  rfl

theorem ActsOnce.access (c : HostCall) :
    s.access c = if m = s.cycleCount + 1 then act.apply (s.tally c) else s.tally c := by
  have acts : (s.tally c).actsAt (.cycle (s.cycleCount + 1)) = if m = s.cycleCount + 1 then [act] else [] :=
    ActsOnce.actsAt_cycle (s := s.tally c) once _
  change (s.tally c).runActs ((s.tally c).actsAt (.cycle (s.cycleCount + 1))) = _
  rw [acts]
  split <;> rfl

/-- The end-of-instruction hook finds no act. -/
theorem ActsOnce.endOfInstruction :
    s.endOfInstruction = if s.hooks.eoi then s.retire.call .eoiHook else s.retire := by
  have none : s.retire.actsAt (.endOfInstruction s.retire.instrCount) = [] :=
    ActsOnce.actsAt_endOfInstruction (s := s.retire) once _
  rw [State.endOfInstruction, State.eoiHook, none]
  rfl

theorem ActsOnce.endOfInstruction_mem : s.endOfInstruction.mem = s.mem := by
  rw [once.endOfInstruction]
  split <;> rfl

theorem ActsOnce.endOfInstruction_pendNmi : s.endOfInstruction.pendNmi = s.pendNmi := by
  rw [once.endOfInstruction]
  split <;> rfl

end

/-- With `RMW_DUMMY = write_old` the middle cycle of a read-modify-write writes the old byte back (R190). -/
theorem dummyWrite_writeOld {s : State} (writeOld : s.params.rmwDummy = .writeOld) (ea : Word) (old : Byte)
    (k : State → Action) : dummyWrite ea old s k = .cycle (.write ea old) s fun _ s => k s := by
  rw [dummyWrite, writeOld]

/-! ### The act is an NMI -/

/-- Cycle `n` has been performed, and the host's one act is an NMI in cycle `m`: the NMI is pending from that cycle on, no IRQ
is, and `c` is committed. -/
def NmiRaised (m n : Nat) (c : Commit) (s : State) : Prop :=
  ActsOnce m .assertNmi s ∧ s.cycleCount = n ∧ s.pendNmi = decide (m ≤ n) ∧ s.irqLine = false ∧ s.committed = c ∧
    s.params.rmwDummy = .writeOld

section

variable {m n : Nat} {c : Commit} {s : State} (h : NmiRaised m n c s)
include h

theorem NmiRaised.access (x : HostCall) : NmiRaised m (n + 1) c (s.access x) := by
  obtain ⟨once, rfl, nmi, irq, committed, writeOld⟩ := h
  rw [once.access]
  split
  case isTrue now => exact ⟨once, rfl, (decide_eq_true (Nat.le_of_eq now)).symm, irq, committed, writeOld⟩
  case isFalse other =>
    refine ⟨once, rfl, ?_, irq, committed, writeOld⟩
    rw [State.tally_pendNmi, nmi, decide_eq_decide]
    omega

theorem NmiRaised.perform (op : BusOp) : NmiRaised m (n + 1) c (perform op s).2 := by
  cases op with
  | read a => exact h.access _
  | fetch d => exact h.access _
  | pull => exact NmiRaised.access (s := s.setSp (s.sp + 1)) h _
  | write a v => exact NmiRaised.access (s := s.setMem (s.mem.write a.toNat v)) h _
  | writeStatus a b => exact NmiRaised.access (s := s.setMem (s.mem.write a.toNat (s.p.statusByte b))) h _

theorem NmiRaised.cycle {F : Nat → State → Prop} {j : Nat} (op : BusOp) {k : Byte → State → Action}
    (g : ∀ v t, NmiRaised m (n + 1) c t → (k v t).Ends F (j + 1)) : (Action.cycle op s k).Ends F j :=
  fun v => g v _ (h.perform op)

theorem NmiRaised.dummyWrite {F : Nat → State → Prop} {j : Nat} (ea : Word) (old : Byte) {k : State → Action}
    (g : ∀ t, NmiRaised m (n + 1) c t → (k t).Ends F (j + 1)) : (dummyWrite ea old s k).Ends F j := by
  have ⟨_, _, _, _, _, writeOld⟩ := h
  rw [dummyWrite_writeOld writeOld]
  exact h.cycle _ fun _ => g

/-- The sample at the end of cycle `n` commits an NMI that has been raised by then (R331). -/
theorem NmiRaised.sample : NmiRaised m n (if m ≤ n then .nmi else c) s.sample := by
  obtain ⟨once, count, nmi, irq, committed, writeOld⟩ := h
  refine ⟨once, count, nmi, irq, ?_, writeOld⟩
  change s.sampled = _
  split
  case isTrue raised => exact sampled_of_nmi (nmi.trans (decide_eq_true raised))
  case isFalse notYet =>
    rw [sampled_of_noNmi (nmi.trans (decide_eq_false notYet)), irq, committed]
    rfl

theorem NmiRaised.endOfInstruction :
    s.endOfInstruction.pendNmi = decide (m ≤ n) ∧ s.endOfInstruction.committed = c := by
  obtain ⟨once, -, nmi, -, committed, -⟩ := h
  exact ⟨once.endOfInstruction_pendNmi.trans nmi, (endOfInstruction_committed s).trans committed⟩

end

/-- The six cycles of `INC abs` (R190, R196): the sample comes before the last. -/
theorem NmiRaised.incAbs {m n : Nat} {s : State} (h : NmiRaised m n .none s) (al ah : Byte) :
    (cyclesIncAbs al ah s).run.pendNmi = decide (m ≤ n + 6) ∧
      (cyclesIncAbs al ah s).run.committed = if m ≤ n + 5 then .nmi else .none := by
  refine Action.Ends.run (n := 0)
    (F := fun _ t => t.pendNmi = decide (m ≤ n + 6) ∧ t.committed = if m ≤ n + 5 then .nmi else .none) ?_
  exact NmiRaised.cycle (s := s.begin 0xEE) h _ fun _ _ h => h.cycle _ fun al _ h => h.cycle _ fun ah t h =>
    NmiRaised.cycle (s := t.latchEa (word ah al) false) h _ fun old t h =>
    NmiRaised.dummyWrite (s := t.latchData old) h _ _ fun _ h => h.sample.cycle _ fun _ t h =>
    NmiRaised.endOfInstruction (s := t.setNZ (old + 1)) h

/-! ### The act is the answer to a read -/

/-- Cycle `n` has been performed, and the host's one act is to answer the read of cycle `m` with `v`; memory is `mem`. -/
def ReadAnswered (m : Nat) (v : Byte) (n : Nat) (mem : Memory) (s : State) : Prop :=
  ActsOnce m (.answer v) s ∧ s.cycleCount = n ∧ s.mem = mem ∧ s.params.rmwDummy = .writeOld

section

variable {m : Nat} {v : Byte} {n : Nat} {mem : Memory} {s : State} (h : ReadAnswered m v n mem s)
include h

/-- An answer changes nothing by itself. -/
theorem ReadAnswered.access (x : HostCall) : ReadAnswered m v (n + 1) mem (s.access x) := by
  obtain ⟨once, rfl, same, writeOld⟩ := h
  rw [once.access]
  split
  · exact ⟨once, rfl, same, writeOld⟩
  · exact ⟨once, rfl, same, writeOld⟩

theorem ReadAnswered.hostAnswer (b : Byte) : s.hostAnswer b = if m = n + 1 then v else b := by
  obtain ⟨once, rfl, -, -⟩ := h
  rw [State.hostAnswer, once.actsAt_cycle]
  split <;> rfl

/-- A fetch in another cycle is answered by memory. -/
theorem ReadAnswered.fetch {final : Memory} (other : m ≠ n + 1) (d : Byte) {k : Byte → State → Action}
    (g : ∀ t, ReadAnswered m v (n + 1) mem t → (k d t).run.mem = final) : (Action.cycle (.fetch d) s k).run.mem = final := by
  rw [run_cycle, perform, State.busFetch, h.hostAnswer, if_neg other]
  exact g _ (h.access _)

theorem ReadAnswered.read {final : Memory} (now : m = n + 1) (a : Word) {k : Byte → State → Action}
    (g : ∀ t, ReadAnswered m v (n + 1) mem t → (k v t).run.mem = final) : (Action.cycle (.read a) s k).run.mem = final := by
  rw [run_cycle, perform, State.busRead, h.hostAnswer, if_pos now]
  exact g _ (h.access _)

theorem ReadAnswered.write {final : Memory} (a : Word) (b : Byte) {k : Byte → State → Action}
    (g : ∀ t, ReadAnswered m v (n + 1) (mem.write a.toNat b) t → (k 0 t).run.mem = final) :
    (Action.cycle (.write a b) s k).run.mem = final := by
  obtain ⟨once, count, rfl, writeOld⟩ := h
  have written : ReadAnswered m v n (s.mem.write a.toNat b) (s.setMem (s.mem.write a.toNat b)) :=
    ⟨once, count, rfl, writeOld⟩
  exact g _ (written.access _)

theorem ReadAnswered.dummyWrite {final : Memory} (ea : Word) (old : Byte) {k : State → Action}
    (g : ∀ t, ReadAnswered m v (n + 1) (mem.write ea.toNat old) t → (k t).run.mem = final) :
    (dummyWrite ea old s k).run.mem = final := by
  have ⟨_, _, _, writeOld⟩ := h
  rw [dummyWrite_writeOld writeOld]
  exact h.write _ _ g

theorem ReadAnswered.endOfInstruction : s.endOfInstruction.mem = mem := by
  obtain ⟨once, -, same, -⟩ := h
  exact once.endOfInstruction_mem.trans same

end

/-- What `INC abs` stores when its fourth cycle, the data read, is answered with `v` (R63, R190, R196). -/
theorem ReadAnswered.incAbs {m n : Nat} {v : Byte} {mem : Memory} {s : State} (h : ReadAnswered m v n mem s)
    (fourth : m = n + 4) (al ah : Byte) :
    (cyclesIncAbs al ah s).run.mem = (mem.write (word ah al).toNat v).write (word ah al).toNat (v + 1) := by
  exact ReadAnswered.fetch (s := s.begin 0xEE) h (by omega) _ fun _ h =>
    h.fetch (by omega) _ fun _ h => h.fetch (by omega) _ fun t h =>
    ReadAnswered.read (s := t.latchEa (word ah al) false) h fourth _ fun t h =>
    ReadAnswered.dummyWrite (s := t.latchData v) h _ _ fun t h => ReadAnswered.write (s := t.sample) h _ _ fun t h =>
    ReadAnswered.endOfInstruction (s := t.setNZ (v + 1)) h

/-- Settles O59: the sample of `INC abs` falls after its fifth cycle, and its fourth reads the byte it increments. -/
theorem requestInTheLastCycleIsSampledLater : Obligations.RequestInTheLastCycleIsSampledLater := by
  intro s al ah k v uncommitted noNmi noIrq first upTo wf writeOld
  refine ⟨?raised, ?answered⟩
  case raised =>
    intro script
    have begun : NmiRaised (s.cycleCount + k) s.cycleCount .none s :=
      ⟨script, rfl, noNmi.trans (decide_eq_false (by omega)).symm, noIrq, uncommitted, writeOld⟩
    obtain ⟨nmi, committed⟩ := begun.incAbs al ah
    exact ⟨_, exec_eq_cyclesOf (.incAbs al ah) s, nmi.trans (decide_eq_true (by omega)), committed.trans (by simp)⟩
  case answered =>
    intro script
    have begun : ReadAnswered (s.cycleCount + 4) v s.cycleCount s.mem s := ⟨script, rfl, rfl, writeOld⟩
    refine ⟨_, exec_eq_cyclesOf (.incAbs al ah) s, ?_⟩
    change Memory.read (cyclesIncAbs al ah s).run.mem _ = _
    rw [begun.incAbs rfl]
    exact Memory.read_write_same _ _ (Memory.wf_write_word _ _ wf)

end Sys2Proof.Machine
end

section
/-! PROOF. The statements of the family 71_scheduler_and_host (R400 to R416). That a step goes on, and that its cycles can be
performed one by one, are read off the boundary action it performs (`Did`). Budgets add by induction on the cycles. The hooks
are run under a host whose one act is to answer true. -/

namespace Sys2Proof.Machine

/-! ## Stall cycles (R402) -/

theorem run_stallCycle_quiet {s : State} (quiet : Quiet s) :
    (stallCycle s).run =
      ({ s with stall := s.stall - 1 } : State).recorded s.pc (.read s.pc :: s.trace) (s.cycleCount + 1) s.committed
        Ctx.idle := by
  rw [run_stallCycle, idled_quiet quiet]
  rfl

/-- Settles O5: line 1 of R334 is one idle cycle. -/
theorem stallCycleEffect : Obligations.StallCycleEffect := by
  intro s quiet known stalled
  exact steps_idleCycle (step_of_stall known stalled) (run_stallCycle_quiet quiet) rfl

/-! ## A step goes on (R320, R416) -/

/-- A RESET has run or is pending: what R371 asks of the host before a run. -/
def State.ResetKnown (s : State) : Prop := s.resetSeen = true ∨ s.pendReset = true

/-- The three bytes at the program counter are enough for every opcode (R97). -/
theorem decode_fetchBytes (s : State) : ∃ i rest, decode s.fetchBytes = .ok (i, rest) := by
  obtain ⟨i, ok⟩ := (decode_cons_ok_iff (s.hostAnswer (s.mem.read s.pc.toNat)) [_, _] _).2 ⟨operandCount_le_two _, rfl⟩
  exact ⟨i, _, ok⟩

theorem stepInstr_eq_complete (s : State) : ∃ a, stepInstr s = complete a := by
  obtain ⟨i, rest, ok⟩ := decode_fetchBytes s
  rw [stepInstr, ok]
  exact ⟨_, exec_eq_cyclesOf i s⟩

/-- Every line of R334 is an action that is performed to its end. -/
theorem step_eq_complete {s : State} (known : s.ResetKnown) : ∃ a, step s = complete a := by
  rcases Nat.eq_zero_or_pos s.stall with unstalled | stalled
  · cases pend : s.pendReset with
    | true => exact ⟨_, step_of_reset unstalled pend⟩
    | false =>
      have seen : s.resetSeen = true := known.resolve_right (Bool.eq_false_iff.1 pend)
      cases x : s.execState with
      | stopped => exact ⟨_, step_of_stopped seen unstalled pend x⟩
      | waiting => exact ⟨_, step_of_waiting seen unstalled pend x⟩
      | running =>
        cases c : s.committed with
        | nmi => exact ⟨_, step_of_nmi seen unstalled pend x c⟩
        | irq => exact ⟨_, step_of_irq seen unstalled pend x c⟩
        | none =>
          rw [step_of_instruction ⟨seen, unstalled, pend, x, c⟩]
          exact stepInstr_eq_complete s
  · exact ⟨_, step_of_stall known stalled⟩

theorem Good.resetKnown {s₀ : State} {X : State → Prop} {a : Action} (g : Good s₀ X 0 a) (known : s₀.ResetKnown) :
    a.run.ResetKnown :=
  have ⟨ended, _, _⟩ := Action.Ends.run g
  known.imp ended.resetSeen.trans ended.pendReset

theorem idled_resetKnown {s : State} (known : s.ResetKnown) : s.idled.ResetKnown :=
  have went := went_idled s
  known.imp went.resetSeen.trans went.pendReset

/-- No boundary action forgets that a RESET has run, or drops one that is pending without running it (R340). -/
theorem Did.resetKnown {s : State} {a : Action} (did : Did s a) (known : s.ResetKnown) : a.run.ResetKnown := by
  cases did with
  | stall _ => exact idled_resetKnown known
  | reset _ => exact (Good.resetSequence s).resetKnown (.inl rfl)
  | stopped _ _ => exact idled_resetKnown known
  | waiting _ _ =>
    rw [run_waitingCycle]
    split
    · exact idled_resetKnown known
    · exact idled_resetKnown known
  | entry _ _ e =>
    refine (Good.enter e s).resetKnown ?_
    cases e with
    | nmi => exact known
    | irq => exact known
  | instruction _ _ _ i _ _ => exact (good_cyclesOf i s).resetKnown known

/-- Settles O16: some line of R334 applies, and whichever it is keeps the condition. -/
theorem stepAlwaysGoesOn : Obligations.StepAlwaysGoesOn := by
  intro s known
  obtain ⟨a, stepped⟩ := step_eq_complete known
  obtain ⟨-, b, -, did, ran⟩ := step_next stepped
  exact ⟨a.run, stepped, ran ▸ did.resetKnown known⟩

/-! ## A step cycle by cycle (R400) -/

theorem Good.cycleCount_run {s₀ : State} {X : State → Prop} {a : Action} (g : Good s₀ X 0 a) :
    a.run.cycleCount = s₀.cycleCount + a.cycles ∧ 1 ≤ a.cycles := by
  obtain ⟨ended, ⟨pos, -⟩, -⟩ := Action.Ends.run g
  rw [Nat.zero_add] at ended pos
  exact ⟨ended.cycleCount, pos⟩

/-- The cycle counter goes up by the cycles of the boundary action, and each action has a cycle. -/
theorem Did.cycleCount_run {s : State} {a : Action} (did : Did s a) :
    a.run.cycleCount = s.cycleCount + a.cycles ∧ 1 ≤ a.cycles := by
  have idled := (went_idled s).cycleCount
  cases did with
  | stall _ => exact ⟨idled, Nat.le_refl 1⟩
  | reset _ => exact (Good.resetSequence s).cycleCount_run
  | stopped _ _ => exact ⟨idled, Nat.le_refl 1⟩
  | waiting _ _ =>
    rw [run_waitingCycle]
    split
    · exact ⟨idled, Nat.le_refl 1⟩
    · exact ⟨idled, Nat.le_refl 1⟩
  | entry _ _ e =>
    have counted := (Good.enter e s).cycleCount_run
    rwa [acknowledge_cycleCount] at counted
  | instruction _ _ _ i _ _ => exact (good_cyclesOf i s).cycleCount_run

/-- Choosing a boundary action takes no cycle of its own: the tick that chooses also performs the first cycle (R401). -/
theorem tickN_of_nextAction {s : State} {a : Action} (chosen : nextAction s = .next a) (pos : 1 ≤ a.cycles) :
    tickN a.cycles (.done s) = tickN a.cycles a := by
  cases a with
  | done t => exact absurd pos (Nat.not_succ_le_zero 0)
  | cycle op t k =>
    have tick_begins : tick (.done s) = tick (.cycle op t k) := by
      rw [tick, chosen]
      rfl
    rw [Action.cycles, tickN, tickN, tick_begins]

/-- Settles O18: the ticks are those of the boundary action the step performs. -/
theorem cycleSteppingReachesTheStep : Obligations.CycleSteppingReachesTheStep := by
  intro s t stepped
  obtain ⟨-, a, chosen, did, rfl⟩ := step_next stepped
  obtain ⟨counted, pos⟩ := did.cycleCount_run
  rw [counted, Nat.add_sub_cancel_left, tickN_of_nextAction chosen pos, tickN_cycles]

/-! ## Cycle budgets (R407, R414) -/

/-- A run that reached its end without a break made its first tick without one. -/
theorem ticks_succ_next {n : Nat} {a b : Action} (ran : ticks (n + 1) a = .next b) (unbroken : b.state.breakReq = false) :
    ∃ c, tick a = .next c ∧ c.state.breakReq = false ∧ ticks n c = .next b := by
  rw [ticks] at ran
  cases first : tick a with
  | next c =>
    simp only [first] at ran
    cases broken : c.state.breakReq with
    | false =>
      rw [broken, if_neg Bool.false_ne_true] at ran
      exact ⟨c, rfl, broken, ran⟩
    | true =>
      rw [broken, if_pos rfl] at ran
      obtain rfl := Host.Outcome.next.inj ran
      exact absurd broken (Bool.eq_false_iff.1 unbroken)
  | fault r => simp [first] at ran
  | refused r => simp [first] at ran

theorem ticks_succ {a c : Action} (first : tick a = .next c) (unbroken : c.state.breakReq = false) (n : Nat) :
    ticks (n + 1) a = ticks n c := by
  simp [ticks, first, unbroken]

theorem tickN_succ {a c : Action} (first : tick a = .next c) (n : Nat) : tickN (n + 1) a = tickN n c := by
  simp [tickN, first]

/-- Settles O19, by induction on the cycles of the first run. -/
theorem cycleBudgetsAdd : Obligations.CycleBudgetsAdd := by
  intro n m a b ran unbroken
  induction n generalizing a with
  | zero =>
    obtain rfl := Host.Outcome.next.inj ran
    exact ⟨by rw [Nat.zero_add], rfl⟩
  | succ n ih =>
    obtain ⟨c, first, goesOn, rest⟩ := ticks_succ_next ran unbroken
    rw [Nat.add_right_comm, ticks_succ first goesOn, tickN_succ first]
    exact ih c rest

/-! ## Hooks that suppress (R266, R302, R410) -/

section

variable {m : Nat} {s : State} (once : ActsOnce m .suppress s)
include once

/-- The answer of a hook changes no access. -/
theorem ActsOnce.access_suppress (x : HostCall) : s.access x = s.tally x := by
  rw [once.access]
  exact ite_self _

theorem ActsOnce.hostAnswer_suppress (b : Byte) : s.hostAnswer b = b := by
  rw [State.hostAnswer, once.actsAt_cycle]
  split <;> rfl

/-- The hook called straight after cycle `m` answers true (R410). -/
theorem ActsOnce.hookAnswer_suppress (now : m = s.cycleCount) : s.hookAnswer = true := by
  rw [State.hookAnswer, once.actsAt_cycle, if_pos now]
  rfl

theorem ActsOnce.run_start_suppress (op : Byte) (k : State → Action) :
    (start op s k).run =
      (k (s.spent [.read s.pc] (s.pc + 1) { Ctx.idle with active := true, opcode := op, cycle := 2 })).run := by
  have here : ActsOnce m .suppress (s.begin op) := once
  rw [start, run_cycle, perform, State.busFetch, here.access_suppress]
  rfl

variable {l : List HostCall} {w : Word} {c : Ctx}

theorem ActsOnce.run_spent_read_suppress (a : Word) (k : Byte → State → Action) :
    (Action.cycle (.read a) (s.spent l w c) k).run =
      (k (s.byteAt a) (s.spent (l ++ [.read a]) w { c with cycle := c.cycle + 1 })).run := by
  have here : ActsOnce m .suppress (s.spent l w c) := once
  rw [run_cycle, perform, State.busRead, here.hostAnswer_suppress, here.access_suppress, State.tally_eq_spent,
    State.spent_spent]
  rfl

theorem ActsOnce.run_spent_fetch_suppress (d : Byte) (k : Byte → State → Action) :
    (Action.cycle (.fetch d) (s.spent l w c) k).run =
      (k d (s.spent (l ++ [.read w]) (w + 1) { c with cycle := c.cycle + 1 })).run := by
  have here : ActsOnce m .suppress (s.spent l w c) := once
  rw [run_cycle, perform, State.busFetch, here.hostAnswer_suppress, here.access_suppress, State.tally_eq_spent,
    State.spent_spent]
  rfl

theorem ActsOnce.run_last_spent_read_suppress (a : Word) (k : Byte → State → Action) :
    (last (.read a) (s.spent l w c) k).run =
      (k (s.byteAt a) (s.spentSampled (l ++ [.read a]) w s.sampled { c with cycle := c.cycle + 1 })).run :=
  ActsOnce.run_spent_read_suppress (s := s.sample) once a k

end

/-- An instruction that changes nothing but `PC` and the record, under a host with one act inside a cycle. -/
theorem ActsOnce.completes {m : Nat} {act : HostAct} {s : State} (once : ActsOnce m act s) {i : Instr} {bytes : List Byte}
    {calls : List HostCall} {n : Nat} {a : Action} {pc : Word} {co : Commit} {c : Ctx} (hi : exec i s = complete a)
    (hb : encode i = bytes)
    (hr : a.run = (s.recorded pc (calls.reverse ++ s.trace) (s.cycleCount + n) co c).endOfInstruction) :
    Completes s i bytes calls n { s with pc := pc } ∧ Commits s i co := by
  have here : ActsOnce m act (s.recorded pc (calls.reverse ++ s.trace) (s.cycleCount + n) co c) := once
  have hooks : (s.recorded pc (calls.reverse ++ s.trace) (s.cycleCount + n) co c).hooks = s.hooks := rfl
  have ran := hi.trans (congrArg Host.Outcome.next hr)
  refine ⟨⟨hb, _, ran, ?completes⟩, ?commits⟩
  case completes =>
    rw [here.endOfInstruction, hooks, State.eoiCalls]
    cases s.hooks.eoi
    · exact ⟨rfl, rfl, rfl, rfl, rfl⟩
    · exact ⟨rfl, rfl, rfl, rfl, rfl⟩
  case commits =>
    intro t ht
    obtain rfl := Host.Outcome.next.inj (ran.symm.trans ht)
    exact endOfInstruction_committed _

/-- Suppressed, `BRK` ends after the fetch of its second byte, with the sample of the cycle before (log entry 15). -/
theorem ActsOnce.run_cyclesBrk_suppress {s : State} (once : ActsOnce (s.cycleCount + 2) .suppress s)
    (installed : s.hooks.brk = true) (sig : Byte) :
    ∃ c, (cyclesBrk sig s).run =
      (s.recorded (s.pc + 2) ([HostCall.read s.pc, .read (s.pc + 1), .brkHook sig].reverse ++ s.trace) (s.cycleCount + 2)
        s.sampled c).endOfInstruction := by
  rw [cyclesBrk, once.run_start_suppress, once.run_spent_fetch_suppress, State.spent_hooks, installed,
    ActsOnce.hookAnswer_suppress (by exact once) rfl, Bool.and_self, if_pos rfl, callBrkHook_spent, State.brkCalls,
    installed, if_pos rfl, word_one_one]
  exact ⟨_, rfl⟩

/-- Suppressed, `STP` does not halt the core, and keeps what it sampled before its last cycle. -/
theorem ActsOnce.run_cyclesStp_suppress {s : State} (once : ActsOnce (s.cycleCount + 3) .suppress s)
    (installed : s.hooks.stp = true) :
    ∃ c, (cyclesStp s).run =
      (s.recorded (s.pc + 1) ([HostCall.read s.pc, .read (s.pc + 1), .read (s.pc + 1), .stpHook].reverse ++ s.trace)
        (s.cycleCount + 3) s.sampled c).endOfInstruction := by
  have hooks (l w co c) : (s.spentSampled l w co c).hooks = s.hooks := rfl
  rw [cyclesStp, once.run_start_suppress, idle, once.run_spent_read_suppress, once.run_last_spent_read_suppress, hooks,
    installed, ActsOnce.hookAnswer_suppress (by exact once) rfl, Bool.and_self, callStpHook_spentSampled,
    State.stpCalls, installed, if_pos rfl]
  exact ⟨_, rfl⟩

/-- Settles O58: the two suppressed runs. -/
theorem hooksSuppressBrkAndStp : Obligations.HooksSuppressBrkAndStp := by
  intro s sig sampled
  refine ⟨?brk, ?stp⟩
  case brk =>
    intro installed once
    obtain ⟨_, run⟩ := ActsOnce.run_cyclesBrk_suppress once installed sig
    exact ActsOnce.completes once rfl rfl run
  case stp =>
    intro installed once
    obtain ⟨_, run⟩ := ActsOnce.run_cyclesStp_suppress once installed
    exact ActsOnce.completes once rfl rfl run

end Sys2Proof.Machine
end

section
/-! PROOF. The statements of the family other: what a step does at a boundary as a whole (R334, R340, R371). Each is read off
the law of the line of R334 that applies; the RESET sequence is run by its statement in the family 60_exceptions. -/

namespace Sys2Proof.Machine

/-- What a step calls, counts and commits, and what it leaves otherwise, make up its whole result. -/
theorem Steps.step_eq {s e : State} {calls : List HostCall} {n k : Nat} {co : Commit} (steps : Steps s calls n k co e) :
    step s = .next { e with
      cycleCount := s.cycleCount + n, instrCount := s.instrCount + k, trace := calls.reverse ++ s.trace
      committed := co, ctx := Ctx.idle } := by
  obtain ⟨t, stepped, frame, trace, cycles, instrs, commit, context⟩ := steps
  rw [stepped, frame, State.withRecord, trace, cycles, instrs, commit, context]

/-- Settles O1: the RESET sequence (R340) at the power-on state; its vector is two bytes of empty memory. -/
theorem resetStateIsResetSequenceResult : Obligations.ResetStateIsResetSequenceResult :=
  (resetSequenceEffect State.powerOn.requestReset rfl rfl rfl).step_eq.trans rfl

/-- Settles O3: the bytes at `PC` are the ones fetched, and the decoder inverts the encoder on them. -/
theorem stepRunsTheInstructionAtPc : Obligations.StepRunsTheInstructionAtPc :=
  fun _ _ ready quiet here => step_of_bytesAtPc ready quiet here

/-- Settles O4: with no RESET run or pending, the choice is the refusal (log entry 9). -/
theorem runBeforeResetIsRefused : Obligations.RunBeforeResetIsRefused :=
  fun _ unseen noReset => step_of_refused unseen noReset

end Sys2Proof.Machine
end
